-- ==== Sys2Proof/Word.lean ====
section
/-! DEFINITION. The word types of the block: element widths of 10_state.md rule R20 and the 35-bit command word of
30_encoding.md rule R80. -/

namespace Sys2Proof

/-- An element of `SPAL`, 8 bits (10_state.md rule R21). -/
abbrev Byte := BitVec 8

/-- An element of `LUT`, `TCT`, `TOPAL`, `MAPA`, `MAPB`, 16 bits (10_state.md rule R20). -/
abbrev Word := BitVec 16

/-- An element of `SOBJ` and one word of a tile block, 32 bits (10_state.md rules R22, R23). -/
abbrev Long := BitVec 32

/-- A command word `CMD[34:0]` (30_encoding.md rule R80). -/
abbrev Cmd := BitVec 35

/-- A tile block, an element of `SOTILE` and `TSTAGE`: words of 32 bits, never looked into (30_encoding.md rule R95).
How many words is the parameter `BLOCK_WORDS`. -/
abbrev Block := List Long

end Sys2Proof
end

