-- ==== Sys2Proof/Config.lean ====
section
/-! DEFINITION. The configuration `cfg` of 00_scope.md rule R9 (14 parameters), and the free values behind the spec's
`unspecified(N)` (rule R14). Nothing here has a value a proof could use: `Config.straps` and `Config.unspecified` have no
body. -/

namespace Sys2Proof

/-- `PF_ROT_AXIS` (00_scope.md rule R9). -/
inductive RotAxis where
  | col
  | row
deriving DecidableEq, Repr, Inhabited

/-- `PF_ROT_DELTA`, +1 or -1 (00_scope.md rule R9). -/
inductive RotDelta where
  | plusOne
  | minusOne
deriving DecidableEq, Repr, Inhabited

/-- The configuration: one field per parameter of 00_scope.md rule R9, in the rule's order and at its widths. -/
structure Cfg where
  /-- `OBJ_CLEAR_TILE` -/
  objClearTile : Byte
  /-- `OBJ_Y_LO` -/
  objYLo : Byte
  /-- `OBJ_Y_HI` -/
  objYHi : Byte
  /-- `OBJ_Y_BIAS` -/
  objYBias : Word
  /-- `OBJ_INSET_X` -/
  objInsetX : Word
  /-- `OBJ_INSET_Y` -/
  objInsetY : Word
  /-- `BLOCK_WORDS` -/
  blockWords : Nat
  /-- `PF_ROT_AXIS` -/
  pfRotAxis : RotAxis
  /-- `PF_ROT_DELTA` -/
  pfRotDelta : RotDelta
  /-- `PF_INSET_ROW` -/
  pfInsetRow : BitVec 6
  /-- `PF_INSET_COL` -/
  pfInsetCol : BitVec 6
  /-- `PF_LOGO_T` -/
  pfLogoT : BitVec 10
  /-- `MAPA_CLEAR` -/
  mapaClear : Word
  /-- `MAPB_CLEAR` -/
  mapbClear : Word
deriving DecidableEq, Repr, Inhabited

/-- The configuration with the three ranges of rule R9 enforced (`OBJ_Y_LO <= OBJ_Y_HI`, `BLOCK_WORDS >= 1`,
`PF_LOGO_T <= 512`); a configuration inside the ranges is left as it is. -/
def Cfg.clamp (c : Cfg) : Cfg :=
  { c with
    objYHi := if c.objYLo ≤ c.objYHi then c.objYHi else c.objYLo
    blockWords := max 1 c.blockWords
    pfLogoT := if c.pfLogoT ≤ 512#10 then c.pfLogoT else 512#10 }

/-- Which element of the state a free value stands in: the table and the index (10_state.md rule R20). -/
inductive Site where
  | spal (i : Nat)
  | sobj (i : Nat)
  | sotile (k j : Nat)
  | lut (b : Nat)
  | cmap (p : Nat)
  | pcnt
  | tct (i : Nat)
  | topal (d i : Nat)
  | tstage (t j : Nat)
  | toam (t : Nat)
  | mapa (i : Nat)
  | mapb (i : Nat)
deriving DecidableEq, Repr

/-- The straps the integrator fixed (70_reset_and_hazards.md rule R252 step 1). Log 2. -/
opaque Config.straps : Cfg

/-- The configuration of the block after reset: any admissible one. Log 2. -/
def Config.cfg : Cfg := Config.straps.clamp

/-- `unspecified(w)` (00_scope.md rule R14): the value that stands in element `site` when the counter of free values
is `tick`. Log 1. -/
opaque Config.unspecified (w : Nat) (tick : Nat) (site : Site) : BitVec w

/-- Which of the values that an input element has held since the issue of the operation in progress the operation reads: the
element is `element`, and it is read for the output element `reader` (20_memory.md rule R62: "independently per element").
Log 11. -/
opaque Config.choice (tick : Nat) (reader element : Site) : Nat

/-- REF of 00_scope.md rule R9: the spec's own values for its test vectors, "not facts about any real machine". -/
def Cfg.ref : Cfg where
  objClearTile := 0x00#8
  objYLo := 0x08#8
  objYHi := 0xE7#8
  objYBias := 0x00F0#16
  objInsetX := 0x0020#16
  objInsetY := 0x0010#16
  blockWords := 128
  pfRotAxis := .col
  pfRotDelta := .plusOne
  pfInsetRow := 2#6
  pfInsetCol := 4#6
  pfLogoT := 0x100#10
  mapaClear := 0x0000#16
  mapbClear := 0x03FF#16

/-- REF2 of 00_scope.md rule R9. -/
def Cfg.ref2 : Cfg :=
  { Cfg.ref with pfLogoT := 0x120#10, pfRotAxis := .row, pfRotDelta := .minusOne }

end Sys2Proof
end

