-- ==== Sys2Proof/Syntax.lean ====
section
/-! DEFINITION. The operations of the block, one constructor per row of spec/opcode_table.json (30_encoding.md rule
R81). Only PFWRITE has operands; the `addr` and `data` fields of the other four are ignored (rule R85). -/

namespace Sys2Proof

/-- An operation of the block. -/
inductive Instr where
  /-- `LUTINIT` (40_lut.md rule R113) -/
  | lutinit
  /-- `PALCONV` (41_palette.md rule R130) -/
  | palconv
  /-- `OBJCONV` (42_object.md rule R154) -/
  | objconv
  /-- `PFWRITE addr, value` (43_playfield.md rule R193); `data` is the value (30_encoding.md rule R83) -/
  | pfwrite (addr data : Word)
  /-- `FRAME` (44_frame.md rule R220) -/
  | frame
deriving DecidableEq, Repr

end Sys2Proof
end

