-- ==== Sys2Proof/WellFormed.lean ====
section
/-! DEFINITION. What is well formed: an operation, a line of the assembler (30_encoding.md rules R98, R99), a
configuration (00_scope.md rule R9) and a tile block (30_encoding.md rule R95). -/

namespace Sys2Proof

/-- A line of the assembler of 30_encoding.md rules R98 and R99: the five operations, and the pseudo-operations `PFCELL`
and `BOOT`. Operands are the numbers as written, so they can be out of range. The text of a line is not modelled (log 16). -/
inductive Asm where
  | lutinit
  | palconv
  | objconv
  | pfwrite (addr value : Nat)
  | frame
  | pfcell (idx tile9 grp : Nat)
  | boot
deriving DecidableEq, Repr

/-- An operation is well formed at every operand: `addr` and `data` are 16 bits by their type, and every 16-bit value is
accepted (30_encoding.md rule R85, 43_playfield.md rule R196). -/
def Instr.wf : Instr → Bool
  | .lutinit => true
  | .palconv => true
  | .objconv => true
  | .pfwrite _ _ => true
  | .frame => true

/-- The operand ranges of 30_encoding.md rules R98 and R99: 16-bit operands of `PFWRITE`; a cell index 0 to 1023, a 9-bit
tile and a 6-bit group of `PFCELL`. -/
def Asm.wf : Asm → Bool
  | .lutinit => true
  | .palconv => true
  | .objconv => true
  | .pfwrite addr value => decide (addr < 65536) && decide (value < 65536)
  | .frame => true
  | .pfcell idx tile9 grp => decide (idx < 1024) && decide (tile9 < 512) && decide (grp < 64)
  | .boot => true

/-- The ranges of 00_scope.md rule R9 that the field types do not already give. -/
def Cfg.valid (c : Cfg) : Bool :=
  decide (c.objYLo ≤ c.objYHi) && decide (1 ≤ c.blockWords) && decide (c.pfLogoT ≤ 512#10)

/-- A tile block has `BLOCK_WORDS` words (30_encoding.md rule R95). -/
def Cfg.blockOk (c : Cfg) (b : Block) : Bool := decide (b.length = c.blockWords)

end Sys2Proof
end

