-- ==== Sys2Proof/Decode.lean ====
section
/-! DEFINITION. Decoding of the 35-bit command word (30_encoding.md rules R80, R81, R84, R85, R100), the encoder
from the same table, and the assembler of rules R98 and R99. -/

namespace Sys2Proof

/-- Why a command word selects no operation. -/
inductive DecodeError where
  /-- A reserved operation code 5, 6 or 7 (30_encoding.md rule R84). -/
  | reservedOp (op : BitVec 3)
deriving DecidableEq, Repr

/-- `CMD[34:32]` (30_encoding.md rule R80). -/
def cmdOp (w : Cmd) : BitVec 3 := w.extractLsb' 32 3

/-- `CMD[31:16]` (30_encoding.md rule R80). -/
def cmdAddr (w : Cmd) : Word := w.extractLsb' 16 16

/-- `CMD[15:0]` (30_encoding.md rule R80). -/
def cmdData (w : Cmd) : Word := w.extractLsb' 0 16

/-- The decoding procedure of 30_encoding.md rule R100, total on every 35-bit word. -/
def decode (w : Cmd) : Except DecodeError Instr :=
  match (cmdOp w).toNat with
  | 0 => .ok .lutinit
  | 1 => .ok .palconv
  | 2 => .ok .objconv
  | 3 => .ok (.pfwrite (cmdAddr w) (cmdData w))
  | 4 => .ok .frame
  | _ => .error (.reservedOp (cmdOp w))

/-- The operation code of 30_encoding.md rule R81. -/
def Instr.op : Instr → BitVec 3
  | .lutinit => 0b000#3
  | .palconv => 0b001#3
  | .objconv => 0b010#3
  | .pfwrite _ _ => 0b011#3
  | .frame => 0b100#3

/-- The `addr` field of the canonical encoding: zero where the operation ignores it (30_encoding.md rule R85). -/
def Instr.addrField : Instr → Word
  | .lutinit => 0#16
  | .palconv => 0#16
  | .objconv => 0#16
  | .pfwrite addr _ => addr
  | .frame => 0#16

/-- The `data` field of the canonical encoding: zero where the operation ignores it (30_encoding.md rule R85). -/
def Instr.dataField : Instr → Word
  | .lutinit => 0#16
  | .palconv => 0#16
  | .objconv => 0#16
  | .pfwrite _ data => data
  | .frame => 0#16

/-- The canonical command word `{op, addr, data}` (30_encoding.md rules R80, R85). -/
def encode (i : Instr) : Cmd := i.op ++ i.addrField ++ i.dataField

/-- `PFCELL idx, tile9, grp` (30_encoding.md rule R99): `PFWRITE` with both operands built from a cell index, a tile and a
group. -/
def pfcellWrite (idx tile9 grp : Nat) : Instr :=
  .pfwrite (BitVec.ofNat 16 (idx <<< 1))
    (BitVec.ofNat 16 (((tile9 >>> 8) <<< 15) ||| (grp <<< 8) ||| (tile9 &&& 0xFF)))

/-- The operation an assembler line stands for, pseudo-operations expanded (30_encoding.md rule R99). -/
def Asm.expand : Asm → Instr
  | .lutinit => .lutinit
  | .palconv => .palconv
  | .objconv => .objconv
  | .pfwrite addr value => .pfwrite (BitVec.ofNat 16 addr) (BitVec.ofNat 16 value)
  | .frame => .frame
  | .pfcell idx tile9 grp => pfcellWrite idx tile9 grp
  | .boot => .lutinit

/-- The assembler: the command word of a well-formed line (30_encoding.md rules R98, R99). -/
def assemble (a : Asm) : Option Cmd := if a.wf then some (encode a.expand) else none

/-- The command word whose bits are `w`, numbered as spec/opcode_table.json numbers them: the command is one word of 35
bits, bit 0 the least significant, so the numbering is the word's own. The port has 35 lines; bits above are not there (log 12). -/
def tableWord (nbits w : Nat) : Cmd := BitVec.ofNat 35 (w % 2 ^ nbits)

/-- The operation the decoder reads from a table word, none where it refuses. -/
def decodeTableWord (nbits w : Nat) : Option Instr :=
  match decode (tableWord nbits w) with
  | .ok i => some i
  | .error _ => none

end Sys2Proof
end

