-- ==== Sys2Proof/Machine/Table.lean ====
section
/-! DEFINITION. A table: an index space of a fixed number of elements (20_memory.md rules R50, R51, R52). A table has
one form only, so equal contents are equal data (log 14). -/

namespace Sys2Proof.Machine

/-- A table of `n` elements. -/
abbrev Table (α : Type) (n : Nat) := Vector α n

variable {α : Type} {n : Nat}

/-- The table whose element `i` is `f i`. -/
def Table.tabulate (f : Fin n → α) : Table α n := ⟨⟨List.ofFn f⟩, by simp⟩

/-- `MemRead(T, i)` (20_memory.md rule R50): element `i`, whole. The index is in range by its type. -/
def Table.read (t : Table α n) (i : Fin n) : α := t[i]

/-- `MemWrite(T, i, v)` (20_memory.md rule R51): element `i` replaced, whole. -/
def Table.write (t : Table α n) (i : Fin n) (v : α) : Table α n := t.set i v

end Sys2Proof.Machine
end

