-- ==== Sys2Proof/Machine/State.lean ====
section
/-! DEFINITION. The state of the block (10_state.md rule R20), the two engines' progress (rules R30, R37b), the host's
pending moves (70_reset_and_hazards.md rule R260), why a step can stop, and the state after reset (rules R39, R250). -/

namespace Sys2Proof.Machine

/-- A target sprite entry, an element of `TOAM`, as a record (30_encoding.md rule R92). -/
structure SpriteEntry where
  /-- 1 = the sprite is displayed -/
  en : Bool
  hflip : Bool
  vflip : Bool
  /-- resolved destination palette slot, 0 to 15 -/
  pal : BitVec 4
  /-- which place of `TSTAGE` holds the sprite's tiles -/
  tsel : BitVec 6
  /-- target x coordinate, modulo 65536 -/
  x : Word
  /-- target y coordinate, modulo 65536 -/
  y : Word
deriving DecidableEq, Repr

/-- The record whose seven fields are the 45 bits of `b`, in the order of 30_encoding.md rule R92; only used to make an
unspecified entry from unspecified bits. -/
def SpriteEntry.ofBits (b : BitVec 45) : SpriteEntry where
  en := b.getLsbD 44
  hflip := b.getLsbD 43
  vflip := b.getLsbD 42
  pal := b.extractLsb' 38 4
  tsel := b.extractLsb' 32 6
  x := b.extractLsb' 16 16
  y := b.extractLsb' 0 16

/-- The two engines of the block (00_scope.md rule R11, 60_exceptions.md rule R237). -/
inductive Engine where
  | frame
  | playfield
deriving DecidableEq, Repr

/-- A value that an element of an input table held before the host overwrote it, while an operation that reads the input
tables was in progress (20_memory.md rule R62, U4). -/
inductive Overwritten where
  /-- `SPAL[i]` held `v` -/
  | spal (i : Fin 256) (v : Byte)
  /-- `SOBJ[k]` held `v` -/
  | sobj (k : Fin 64) (v : Long)
  /-- `SOTILE[k]` held `b` -/
  | sotile (k : Fin 256) (b : Block)
deriving DecidableEq, Repr

/-- What the frame engine is doing (10_state.md rules R30, R37b): idle, or in the middle of an operation, with the index of
the element or slot it does next. A slot index `t` stands for the source slot `s = t + 16`. An operation that reads the input
tables carries the values overwritten since its issue, latest first: none unless the host breaks its duty (20_memory.md rule
R62; log 11). -/
inductive FrameEngine where
  | idle
  /-- LUTINIT, next entry `i` -/
  | lutinit (i : Fin 256)
  /-- PALCONV, next entry `i` -/
  | palconv (i : Fin 256) (old : List Overwritten)
  /-- OBJCONV, next slot `t` -/
  | objconv (t : Fin 48) (old : List Overwritten)
  /-- FRAME in its PALCONV part, next entry `i` -/
  | framePal (i : Fin 256) (old : List Overwritten)
  /-- FRAME in its OBJCONV part, next slot `t` -/
  | frameObj (t : Fin 48) (old : List Overwritten)
deriving DecidableEq, Repr

/-- What the playfield engine is doing (10_state.md rules R30, R37b). -/
inductive PfEngine where
  | idle
  /-- a PFWRITE accepted, neither map written yet -/
  | accepted (addr data : Word)
  /-- `MAPA[di]` written, `MAPB[di]` not yet -/
  | halfway (addr data : Word)
deriving DecidableEq, Repr

/-- A move of the host or of the outside world (70_reset_and_hazards.md rules R250, R252, R260). Reading an output table is
no move here: it changes nothing (20_memory.md rule R57). -/
inductive HostMove where
  /-- a command presented and run to completion (20_memory.md rule R60) -/
  | command (w : Cmd)
  /-- a command presented; the operation is then in progress on its engine (20_memory.md rule R61) -/
  | issue (w : Cmd)
  /-- the frame engine does its next element or slot -/
  | workFrame
  /-- the playfield engine does its next write -/
  | workPlayfield
  /-- the host writes `SPAL[i]` -/
  | writeSpal (i : Fin 256) (v : Byte)
  /-- the host writes `SOBJ[i]` -/
  | writeSobj (i : Fin 64) (v : Long)
  /-- the host writes the block `SOTILE[k]` -/
  | writeSotile (k : Fin 256) (b : Block)
  /-- boot step 5 of rule R252: `MAPA_CLEAR` to every element of `MAPA`, `MAPB_CLEAR` to every element of `MAPB` -/
  | clearMaps
  /-- the reset event of rule R250 -/
  | reset
deriving DecidableEq, Repr

/-- Why the machine stops with a fault: never. "No exceptions or error returns anywhere in this subsystem"
(60_exceptions.md rule R230), so there is no constructor. -/
inductive Fault where
deriving DecidableEq, Repr

/-- Why a step has no meaning. -/
inductive Refusal where
  /-- Raised by no arm of `exec` any more; the name a not yet modelled operation would carry. Safe. -/
  | notModelled (mnemonic : String)
  /-- Raised by the command port: a frame operation presented while one is in progress. The spec gives the host no such
  move (70_reset_and_hazards.md rule R255, U3). Unsafe on a platform that does not keep the host's duty (log 4). -/
  | frameBusy
  /-- Raised by the command port: a PFWRITE presented while one is in progress (70_reset_and_hazards.md rule R256, U3).
  Unsafe on a platform that does not keep the host's duty (log 4). -/
  | playfieldBusy
  /-- Raised by the clearing of the maps after a PFWRITE was issued: boot step 5 comes "before the first PFWRITE"
  (70_reset_and_hazards.md rules R252, R260, U3). Unsafe on a platform that does not keep the host's duty (log 4). -/
  | mapsInUse
  /-- Raised by a host write of a block that does not have `BLOCK_WORDS` words: no element of `SOTILE` (20_memory.md rule
  R51, 30_encoding.md rule R95). Safe: there is no such element to write (log 4). -/
  | notABlock
deriving DecidableEq, Repr

/-- The state: first the spec's (10_state.md rules R20, R39), then the model's own fields. -/
structure State where
  /-- `SPAL`, source colour table, the host's (rule R21) -/
  spal : Table Byte 256
  /-- `SOBJ`, source object table, the host's (rule R22) -/
  sobj : Table Long 64
  /-- `SOTILE`, object tile blocks, the host's (rule R23) -/
  sotile : Table Block 256
  /-- `LUT`, colour lookup table (rule R24) -/
  lut : Table Word 256
  /-- `LUTV`, the LUT is built (rule R29) -/
  lutv : Bool
  /-- `CMAP`, palette compaction map (rule R27) -/
  cmap : Table (BitVec 4) 32
  /-- `PCNT`, palettes assigned (rule R28) -/
  pcnt : BitVec 4
  /-- `TCT`, target colour table (rule R25) -/
  tct : Table Word 256
  /-- `TOPAL`, target object palette slots (rule R26) -/
  topal : Table (Table Word 16) 16
  /-- `TSTAGE`, tile staging area (rule R33) -/
  tstage : Table Block 48
  /-- `TOAM`, target sprite table (rule R34) -/
  toam : Table SpriteEntry 48
  /-- `MAPA` (rule R35) -/
  mapa : Table Word 4096
  /-- `MAPB` (rule R36) -/
  mapb : Table Word 4096
  /-- the frame engine (rules R30, R39) -/
  frameEngine : FrameEngine
  /-- the playfield engine (rules R30, R39) -/
  pfEngine : PfEngine
  /-- the model's own: the configuration of 00_scope.md rule R9, which no step writes (log 2) -/
  cfg : Cfg
  /-- the model's own: the host's pending moves, oldest first (log 3) -/
  inputs : List HostMove
  /-- the model's own: a PFWRITE has been issued since reset (log 3) -/
  pfIssued : Bool
  /-- the model's own: the counter of the free values (log 1) -/
  tick : Nat
deriving DecidableEq, Repr

/-- A block of `n` unspecified words. -/
def freeBlock (n tick : Nat) (site : Nat → Site) : Block :=
  (List.range n).map fun j => Config.unspecified 32 tick (site j)

/-- The state after the reset event (10_state.md rule R39, 70_reset_and_hazards.md rule R250): both engines idle, `LUTV` 0,
every other element unspecified. The configuration stays ("constant for the life of the block", 00_scope.md rule R9) and the
host's later moves are still to come. Logs 1 and 8. -/
def State.afterReset (c : Cfg) (n : Nat) (moves : List HostMove) : State where
  spal := .tabulate fun i => Config.unspecified 8 n (.spal i)
  sobj := .tabulate fun i => Config.unspecified 32 n (.sobj i)
  sotile := .tabulate fun k => freeBlock c.blockWords n (.sotile k)
  lut := .tabulate fun b => Config.unspecified 16 n (.lut b)
  lutv := false
  cmap := .tabulate fun p => Config.unspecified 4 n (.cmap p)
  pcnt := Config.unspecified 4 n .pcnt
  tct := .tabulate fun i => Config.unspecified 16 n (.tct i)
  topal := .tabulate fun d => .tabulate fun i => Config.unspecified 16 n (.topal d i)
  tstage := .tabulate fun t => freeBlock c.blockWords n (.tstage t)
  toam := .tabulate fun t => .ofBits (Config.unspecified 45 n (.toam t))
  mapa := .tabulate fun i => Config.unspecified 16 n (.mapa i)
  mapb := .tabulate fun i => Config.unspecified 16 n (.mapb i)
  frameEngine := .idle
  pfEngine := .idle
  cfg := c
  inputs := moves
  pfIssued := false
  tick := n + 1

/-- The machine right after power-on (10_state.md rule R39): no command presented yet. -/
def State.reset : State := State.afterReset Config.cfg 0 []

end Sys2Proof.Machine
end

