-- ==== Sys2Proof/Machine/Flags.lean ====
section
/-! DEFINITION. The block has no flags (10_state.md rule R31). The one status-like bit is `LUTV` (rule R29), hidden from the
host, which decides whether a colour word read through `LUT` means anything. -/

namespace Sys2Proof.Machine

/-- `LUTV <- 1`, done by LUTINIT and by nothing else (10_state.md rule R29). -/
def State.setLutv (s : State) : State := { s with lutv := true }

/-- The colour word of source byte `b` for element `site`: `LUT[b]` when the LUT is built, `unspecified(16)` when it is not
(41_palette.md rules R130, R131; 42_object.md rules R149, R141). -/
def State.colourWord (s : State) (b : Byte) (site : Site) : Word :=
  if s.lutv then s.lut.read b.toFin else Config.unspecified 16 s.tick site

/-- The counter of free values moves on past an operation that drew some (log 1). -/
def State.nextTick (s : State) : State := { s with tick := s.tick + 1 }

end Sys2Proof.Machine
end

