-- ==== Sys2Proof/Machine/Operands.lean ====
section
/-! DEFINITION. The fields of the packed source formats (30_encoding.md rules R86, R88, R89, R90) and the packed form of a
target sprite entry (rule R93), at the positions the spec decided (rule R10, log 13). -/

namespace Sys2Proof.Machine

/-! ## Source colour byte (rule R86) -/

/-- `r`, bits 7:5. -/
def colourR (b : Byte) : BitVec 3 := b.extractLsb' 5 3

/-- `g`, bits 4:2. -/
def colourG (b : Byte) : BitVec 3 := b.extractLsb' 2 3

/-- `bl`, bits 1:0. -/
def colourB (b : Byte) : BitVec 2 := b.extractLsb' 0 2

/-! ## ObjectEntry (rules R88, R146); bit 29 is read and discarded -/

/-- `hflip`, bit 31. -/
def objHflip (e : Long) : Bool := e.getLsbD 31

/-- `vflip`, bit 30. -/
def objVflip (e : Long) : Bool := e.getLsbD 30

/-- `p`, the source object-palette index, bits 28:24. -/
def objPal (e : Long) : BitVec 5 := e.extractLsb' 24 5

/-- `tile`, bits 23:16. -/
def objTile (e : Long) : Byte := e.extractLsb' 16 8

/-- `x`, bits 15:8. -/
def objX (e : Long) : Byte := e.extractLsb' 8 8

/-- `y`, bits 7:0. -/
def objY (e : Long) : Byte := e.extractLsb' 0 8

/-! ## PFWRITE operands (rules R89, R90); `addr[0]`, `addr[15:11]` and `value[14]` are ignored -/

/-- `idx = addr[10:1]`. -/
def pfIdx (addr : Word) : BitVec 10 := addr.extractLsb' 1 10

/-- `tile9 = {value[15], value[7:0]}`. -/
def pfTile9 (value : Word) : BitVec 9 := value.extractLsb' 15 1 ++ value.extractLsb' 0 8

/-- `grp = value[13:8]`. -/
def pfGrp (value : Word) : BitVec 6 := value.extractLsb' 8 6

/-- `sub = grp[1:0]` (43_playfield.md rule R188). -/
def pfSub (value : Word) : BitVec 2 := (pfGrp value).extractLsb' 0 2

/-- `nib = grp[5:2]` (43_playfield.md rule R188). -/
def pfNib (value : Word) : BitVec 4 := (pfGrp value).extractLsb' 2 4

/-! ## Target formats -/

/-- `ent(nib, tidx) = (nib << 12) | tidx`, bits 11:10 zero (rule R91). -/
def mapEntry (nib : BitVec 4) (tidx : BitVec 10) : Word := nib ++ 0#2 ++ tidx

/-- Word `A0` of a packed sprite entry (rule R93). -/
def SpriteEntry.word0 (e : SpriteEntry) : Word :=
  BitVec.ofBool e.en ++ BitVec.ofBool e.hflip ++ BitVec.ofBool e.vflip ++ 0#1 ++ e.pal ++ 0#2 ++ e.tsel

/-- The packed sprite entry `{A0, A1, A2}`, 48 bits (rule R93). -/
def SpriteEntry.pack (e : SpriteEntry) : BitVec 48 := e.word0 ++ e.x ++ e.y

/-- `SPR_OFF`, every field 0 (rule R92). -/
def SpriteEntry.off : SpriteEntry where
  en := false
  hflip := false
  vflip := false
  pal := 0#4
  tsel := 0#6
  x := 0#16
  y := 0#16

end Sys2Proof.Machine
end

