-- ==== Sys2Proof/Machine/Ops.lean ====
section
/-! DEFINITION. The shared operations: writes of one element of each table (20_memory.md rule R51), the well-formedness of
the block-valued tables, and the engines' admission of a command.

Taking an exception and returning from one: the block does neither. "The block takes no traps: it saves no state, changes no
mode, has no vector table" (60_exceptions.md rules R230, R234, R235), so there is no operation for them. -/

namespace Sys2Proof.Machine

/-! ## Table writes (20_memory.md rule R51) -/

/-- `SPAL[i] <- v`, by the host (10_state.md rule R38). -/
def State.writeSpal (s : State) (i : Fin 256) (v : Byte) : State := { s with spal := s.spal.write i v }

/-- `SOBJ[i] <- v`, by the host. -/
def State.writeSobj (s : State) (i : Fin 64) (v : Long) : State := { s with sobj := s.sobj.write i v }

/-- `SOTILE[k] <- b`, by the host. -/
def State.writeSotile (s : State) (k : Fin 256) (b : Block) : State := { s with sotile := s.sotile.write k b }

/-- `LUT[b] <- v`. -/
def State.writeLut (s : State) (b : Fin 256) (v : Word) : State := { s with lut := s.lut.write b v }

/-- `CMAP[p] <- d`. -/
def State.writeCmap (s : State) (p : Fin 32) (d : BitVec 4) : State := { s with cmap := s.cmap.write p d }

/-- `PCNT <- n`. -/
def State.setPcnt (s : State) (n : BitVec 4) : State := { s with pcnt := n }

/-- `TCT[i] <- v`. -/
def State.writeTct (s : State) (i : Fin 256) (v : Word) : State := { s with tct := s.tct.write i v }

/-- `TOPAL[d][i] <- v`. -/
def State.writeTopal (s : State) (d i : Fin 16) (v : Word) : State :=
  { s with topal := s.topal.write d ((s.topal.read d).write i v) }

/-- `TSTAGE[t] <- b`, a whole block. -/
def State.writeTstage (s : State) (t : Fin 48) (b : Block) : State := { s with tstage := s.tstage.write t b }

/-- `TOAM[t] <- e`, a whole entry. -/
def State.writeToam (s : State) (t : Fin 48) (e : SpriteEntry) : State := { s with toam := s.toam.write t e }

/-- `MAPA[i] <- v`. -/
def State.writeMapa (s : State) (i : Fin 4096) (v : Word) : State := { s with mapa := s.mapa.write i v }

/-- `MAPB[i] <- v`. -/
def State.writeMapb (s : State) (i : Fin 4096) (v : Word) : State := { s with mapb := s.mapb.write i v }

/-! ## Engines and the host's moves -/

/-- The frame engine's progress becomes `e`. -/
def State.setFrameEngine (s : State) (e : FrameEngine) : State := { s with frameEngine := e }

/-- The playfield engine's progress becomes `e`. -/
def State.setPfEngine (s : State) (e : PfEngine) : State := { s with pfEngine := e }

/-- The moves still to come are `ms`. -/
def State.setInputs (s : State) (ms : List HostMove) : State := { s with inputs := ms }

/-- A PFWRITE has been issued since reset. -/
def State.setPfIssued (s : State) : State := { s with pfIssued := true }

/-- Which engine executes an operation (30_encoding.md rule R81). -/
def engineOf : Instr → Engine
  | .lutinit => .frame
  | .palconv => .frame
  | .objconv => .frame
  | .pfwrite _ _ => .playfield
  | .frame => .frame

/-- The host's duty not to present an operation to an engine that is busy (70_reset_and_hazards.md rules R255, R256):
the refusal of a host that breaks it. The other engine may be busy (rule R260, 20_memory.md rule R61). -/
def State.busyFor (s : State) (i : Instr) : Option Refusal :=
  match engineOf i with
  | .frame => if s.frameEngine = .idle then none else some .frameBusy
  | .playfield => if s.pfEngine = .idle then none else some .playfieldBusy

/-- Book-keeping of the host's duty of 70_reset_and_hazards.md rule R252 step 5: an operation is being issued. -/
def State.noteIssue (s : State) (i : Instr) : State :=
  match engineOf i with
  | .frame => s
  | .playfield => s.setPfIssued

/-! ## Well-formed memory -/

/-- The values overwritten since the issue of the operation in progress. -/
def FrameEngine.overwritten : FrameEngine → List Overwritten
  | .idle => []
  | .lutinit _ => []
  | .palconv _ old => old
  | .objconv _ old => old
  | .framePal _ old => old
  | .frameObj _ old => old

/-- An overwritten block has `BLOCK_WORDS` words. -/
def Overwritten.ok (c : Cfg) : Overwritten → Bool
  | .spal _ _ => true
  | .sobj _ _ => true
  | .sotile _ b => c.blockOk b

/-- The form of the memory: every block of `SOTILE` and `TSTAGE`, and every overwritten block still to be read, has
`BLOCK_WORDS` words (30_encoding.md rule R95). The other tables can hold nothing ill formed: their sizes and element widths
are types. -/
def Memory.wf (s : State) : Bool :=
  s.sotile.toList.all (fun b => s.cfg.blockOk b) && s.tstage.toList.all (fun b => s.cfg.blockOk b) &&
    s.frameEngine.overwritten.all (fun o => o.ok s.cfg)

end Sys2Proof.Machine
end

