-- ==== Sys2Proof/Machine/Object.lean ====
section
/-! DEFINITION. OBJCONV, the object converter (spec/42_object.md). -/

namespace Sys2Proof.Machine

/-- The source slot of target slot `t`: `s = t + 16` (rule R143). -/
def srcSlot (t : Fin 48) : Fin 64 := ⟨t.val + 16, by omega⟩

/-- `SOBJ[t + 16]`. -/
def objEntry (s : State) (t : Fin 48) : Long := s.sobj.read (srcSlot t)

/-- `live(e)` (rule R144), on the raw fields, unsigned, both ends included. -/
def live (c : Cfg) (e : Long) : Bool :=
  decide (objTile e ≠ c.objClearTile) && decide (c.objYLo ≤ objY e) && decide (objY e ≤ c.objYHi)

/-- Start of the operation (rule R142): `CMAP` all 0, `PCNT` 0. -/
def objStart (s : State) : State := { s with cmap := .tabulate fun _ => 0#4, pcnt := 0#4 }

/-- The source colour `SPAL[4 * p + i]` (rule R149). -/
def palColourIndex (p : BitVec 5) (i : Fin 4) : Fin 256 := ⟨4 * p.toNat + i.val, by omega⟩

/-- `TOPAL[d][i] <- LUT[SPAL[4 * p + i]]` (rule R149), `unspecified(16)` with `LUTV = 0` (rule R141). -/
def publishColour (p : BitVec 5) (d : BitVec 4) (s : State) (i : Fin 4) : State :=
  s.writeTopal d.toFin (i.castLE (by omega))
    (s.colourWord (s.spal.read (palColourIndex p i)) (.topal d.toNat i))

/-- `publish(p, d)` (rule R149): the four colours in order. -/
def publish (p : BitVec 5) (d : BitVec 4) (s : State) : State :=
  [0, 1, 2, 3].foldl (publishColour p d) s

/-- Palette resolution (rule R147): the destination slot `d`, and the state with the assignment recorded and published. -/
def resolvePalette (p : BitVec 5) (s : State) : BitVec 4 × State :=
  let assigned := s.cmap.read p.toFin
  if assigned ≠ 0#4 then (assigned, s)
  else if s.pcnt < 15#4 then
    let d := s.pcnt + 1#4
    (d, (publish p d (s.setPcnt d)).writeCmap p.toFin d)
  else (0#4, s)

/-- `xt` (rule R153). -/
def objXt (c : Cfg) (e : Long) : Word := (objX e).setWidth 16 + 8#16 + c.objInsetX

/-- `yt` (rule R153). -/
def objYt (c : Cfg) (e : Long) : Word := c.objYBias - (objY e).setWidth 16 + c.objInsetY

/-- The sprite entry of a live slot (rule R151). -/
def liveEntry (c : Cfg) (e : Long) (t : Fin 48) (d : BitVec 4) : SpriteEntry where
  en := true
  hflip := objHflip e
  vflip := objVflip e
  pal := d
  tsel := BitVec.ofNat 6 t.val
  x := objXt c e
  y := objYt c e

/-- Tile staging (rule R150): `TSTAGE[t] <- SOTILE[tile]`. -/
def stageTile (t : Fin 48) (e : Long) (s : State) : State := s.writeTstage t (s.sotile.read (objTile e).toFin)

/-- One turn of OBJCONV's scan, slot `t` (rule R154). -/
def objSlot (s : State) (t : Fin 48) : State :=
  let e := objEntry s t
  if live s.cfg e then
    let r := resolvePalette (objPal e) (stageTile t e s)
    r.2.writeToam t (liveEntry s.cfg e t r.1)
  else s.writeToam t .off

/-- End of the operation (rule R155): `CMAP` and `PCNT` are `unspecified`. -/
def objEnd (s : State) : State :=
  State.nextTick
    { s with
      cmap := .tabulate fun p => Config.unspecified 4 s.tick (.cmap p)
      pcnt := Config.unspecified 4 s.tick .pcnt }

/-- The target slots in scan order (rule R143). Irreducible, so that a proof meets the scan as a fold and not as 48 turns. -/
@[irreducible] def slots : List (Fin 48) := List.finRange 48

/-- The scan (rule R154): every slot, ascending. -/
def objScan (s : State) : State := slots.foldl objSlot (objStart s)

/-- OBJCONV, whole (rule R154). -/
def objconv (s : State) : State := objEnd (objScan s)

/-- `OBJCONV` (rule R154). -/
def execObjconv (s : State) : Host.Outcome State Fault Refusal := .next (objconv s)

end Sys2Proof.Machine
end

