-- ==== Sys2Proof/Machine/Palette.lean ====
section
/-! DEFINITION. PALCONV, the palette converter (spec/41_palette.md). -/

namespace Sys2Proof.Machine

/-- What PALCONV writes to `TCT[i]`: `LUT[SPAL[i]]` (rule R130), `unspecified(16)` with `LUTV = 0` (rule R131). -/
def palWord (s : State) (i : Fin 256) : Word := s.colourWord (s.spal.read i) (.tct i)

/-- One turn of PALCONV's loop (rule R130). -/
def palEntry (i : Fin 256) (s : State) : State := s.writeTct i (palWord s i)

/-- The end of PALCONV: with `LUTV = 0` it drew free values, so the counter moves on. -/
def palEnd (s : State) : State := if s.lutv then s else s.nextTick

/-- PALCONV, whole (rules R130, R131, R132): every entry of `TCT`, every time. -/
def palconv (s : State) : State := palEnd { s with tct := .tabulate (palWord s) }

/-- `PALCONV` (rule R130). -/
def execPalconv (s : State) : Host.Outcome State Fault Refusal := .next (palconv s)

end Sys2Proof.Machine
end

