-- ==== Sys2Proof/Machine/Frame.lean ====
section
/-! DEFINITION. FRAME, the frame step (spec/44_frame.md). -/

namespace Sys2Proof.Machine

/-- `FRAME` (rule R220): PALCONV, then OBJCONV. -/
def execFrame (s : State) : Host.Outcome State Fault Refusal := .next (objconv (palconv s))

end Sys2Proof.Machine
end

