-- ==== Sys2Proof/Machine/Lut.lean ====
section
/-! DEFINITION. The colour function and LUTINIT (spec/40_lut.md). -/

namespace Sys2Proof.Machine

/-- `expand3(f) = {f[2], f[1], f[0], f[2], f[1]}` (rule R110). -/
def expand3 (f : BitVec 3) : BitVec 5 := f ++ f.extractLsb' 1 2

/-- `expand2(f) = {f[1], f[0], f[1], f[0], f[1]}` (rule R111; the source's printed blue formula is rejected,
90_conflicts.md C1). -/
def expand2 (f : BitVec 2) : BitVec 5 := f ++ f ++ f.extractLsb' 1 1

/-- `lutword(b) = {0, B5, G5, R5}` (rule R112). -/
def lutword (b : Byte) : Word := 0#1 ++ expand2 (colourB b) ++ expand3 (colourG b) ++ expand3 (colourR b)

/-- One turn of LUTINIT's loop: `LUT[b] <- lutword(b)` (rule R113). -/
def lutEntry (b : Fin 256) (s : State) : State := s.writeLut b (lutword (BitVec.ofFin b))

/-- LUTINIT, whole (rule R113): every entry of `LUT`, then `LUTV <- 1`. -/
def lutinit (s : State) : State :=
  State.setLutv { s with lut := .tabulate fun b => lutword (BitVec.ofFin b) }

/-- `LUTINIT` (rule R113). -/
def execLutinit (s : State) : Host.Outcome State Fault Refusal := .next (lutinit s)

end Sys2Proof.Machine
end

