-- ==== Sys2Proof/Machine/Playfield.lean ====
section
/-! DEFINITION. PFWRITE, the playfield converter (spec/43_playfield.md). -/

namespace Sys2Proof.Machine

/-- `hi = idx[9:5]`, the source column (rules R183, R184). -/
def pfHi (addr : Word) : BitVec 5 := (pfIdx addr).extractLsb' 5 5

/-- `lo = idx[4:0]`, the source row (rules R183, R184). -/
def pfLo (addr : Word) : BitVec 5 := (pfIdx addr).extractLsb' 0 5

/-- One position along the rotated axis, modulo 32 (rule R186). -/
def rotate (d : RotDelta) (v : BitVec 5) : BitVec 5 :=
  match d with
  | .plusOne => v + 1#5
  | .minusOne => v - 1#5

/-- `col` (rule R186). -/
def pfCol (c : Cfg) (addr : Word) : BitVec 5 :=
  match c.pfRotAxis with
  | .col => rotate c.pfRotDelta (pfHi addr)
  | .row => pfHi addr

/-- `row` (rule R186). -/
def pfRow (c : Cfg) (addr : Word) : BitVec 5 :=
  match c.pfRotAxis with
  | .col => pfLo addr
  | .row => rotate c.pfRotDelta (pfLo addr)

/-- `drow = (row + PF_INSET_ROW) mod 64` (rule R187). -/
def pfDrow (c : Cfg) (addr : Word) : BitVec 6 := (pfRow c addr).setWidth 6 + c.pfInsetRow

/-- `dcol = (col + PF_INSET_COL) mod 64` (rule R187). -/
def pfDcol (c : Cfg) (addr : Word) : BitVec 6 := (pfCol c addr).setWidth 6 + c.pfInsetCol

/-- `di = drow * 64 + dcol` (rule R187). -/
def pfDest (c : Cfg) (addr : Word) : Fin 4096 := ⟨(pfDrow c addr).toNat * 64 + (pfDcol c addr).toNat, by omega⟩

/-- `dt`, the destination tile index (rule R189). -/
def pfDestTile (c : Cfg) (value : Word) : Nat :=
  if (pfTile9 value).toNat < c.pfLogoT.toNat then 4 * (pfTile9 value).toNat + (pfSub value).toNat
  else 4 * c.pfLogoT.toNat + ((pfTile9 value).toNat - c.pfLogoT.toNat)

/-- `e = ent(nib, dt mod 1024)` (rule R191). -/
def pfEntry (c : Cfg) (value : Word) : Word := mapEntry (pfNib value) (BitVec.ofNat 10 (pfDestTile c value))

/-- What PFWRITE writes to `MAPA[di]` (rule R192). -/
def pfWordA (c : Cfg) (value : Word) : Word := if pfDestTile c value < 1024 then pfEntry c value else c.mapaClear

/-- What PFWRITE writes to `MAPB[di]` (rule R192). -/
def pfWordB (c : Cfg) (value : Word) : Word := if pfDestTile c value < 1024 then c.mapbClear else pfEntry c value

/-- The first of the two writes (rule R192). -/
def pfWriteA (addr value : Word) (s : State) : State := s.writeMapa (pfDest s.cfg addr) (pfWordA s.cfg value)

/-- The second of the two writes (rule R192). -/
def pfWriteB (addr value : Word) (s : State) : State := s.writeMapb (pfDest s.cfg addr) (pfWordB s.cfg value)

/-- PFWRITE, whole (rule R193). -/
def pfwrite (addr value : Word) (s : State) : State := pfWriteB addr value (pfWriteA addr value s)

/-- `PFWRITE addr, data` (rule R193). -/
def execPfwrite (addr data : Word) (s : State) : Host.Outcome State Fault Refusal := .next (pfwrite addr data s)

end Sys2Proof.Machine
end

