-- ==== Sys2Proof/Machine/Dispatch.lean ====
section
/-! DEFINITION. One arm per operation. -/

namespace Sys2Proof.Machine

/-- The effect of one operation, run to completion (20_memory.md rule R60). -/
def exec (i : Instr) (s : State) : Host.Outcome State Fault Refusal :=
  match i with
  | .lutinit => Sys2Proof.Machine.execLutinit s
  | .palconv => Sys2Proof.Machine.execPalconv s
  | .objconv => Sys2Proof.Machine.execObjconv s
  | .pfwrite addr data => Sys2Proof.Machine.execPfwrite addr data s
  | .frame => Sys2Proof.Machine.execFrame s

end Sys2Proof.Machine
end

