-- ==== Sys2Proof/Machine/Inputs.lean ====
section
/-! DEFINITION. Host writes of the input tables while an operation that reads them is in progress: "each element read by the
operation holds either its old or its new value, independently per element" (20_memory.md rule R62, U4). The host's duty is
not to make them (70_reset_and_hazards.md rule R254). Log 11. -/

namespace Sys2Proof.Machine

/-! ## The host's write -/

/-- PALCONV, OBJCONV or FRAME is in progress (70_reset_and_hazards.md rule R254); LUTINIT and PFWRITE read no input table. -/
def State.readsInputs (s : State) : Bool :=
  match s.frameEngine with
  | .idle => false
  | .lutinit _ => false
  | .palconv _ _ => true
  | .objconv _ _ => true
  | .framePal _ _ => true
  | .frameObj _ _ => true

/-- The operation in progress remembers one more overwritten value. -/
def FrameEngine.note (o : Overwritten) : FrameEngine → FrameEngine
  | .idle => .idle
  | .lutinit i => .lutinit i
  | .palconv i old => .palconv i (o :: old)
  | .objconv t old => .objconv t (o :: old)
  | .framePal i old => .framePal i (o :: old)
  | .frameObj t old => .frameObj t (o :: old)

/-- An element with value `o` is about to be overwritten: remembered when the operation in progress reads the input tables, and
the choices to come are then fresh. -/
def State.noteOverwritten (s : State) (o : Overwritten) : State :=
  if s.readsInputs then (s.setFrameEngine (s.frameEngine.note o)).nextTick else s

/-- The host writes `SPAL[i]`. -/
def State.hostWriteSpal (s : State) (i : Fin 256) (v : Byte) : State :=
  (s.noteOverwritten (.spal i (s.spal.read i))).writeSpal i v

/-- The host writes `SOBJ[k]`. -/
def State.hostWriteSobj (s : State) (k : Fin 64) (v : Long) : State :=
  (s.noteOverwritten (.sobj k (s.sobj.read k))).writeSobj k v

/-- The host writes the block `SOTILE[k]`. -/
def State.hostWriteSotile (s : State) (k : Fin 256) (b : Block) : State :=
  (s.noteOverwritten (.sotile k (s.sotile.read k))).writeSotile k b

/-! ## The operation's reads -/

/-- Values that `SPAL[i]` held. -/
def spalBefore (i : Fin 256) : List Overwritten → List Byte
  | [] => []
  | .spal j v :: old => if j = i then v :: spalBefore i old else spalBefore i old
  | .sobj _ _ :: old => spalBefore i old
  | .sotile _ _ :: old => spalBefore i old

/-- Values that `SOBJ[k]` held. -/
def sobjBefore (k : Fin 64) : List Overwritten → List Long
  | [] => []
  | .spal _ _ :: old => sobjBefore k old
  | .sobj j v :: old => if j = k then v :: sobjBefore k old else sobjBefore k old
  | .sotile _ _ :: old => sobjBefore k old

/-- Blocks that `SOTILE[k]` held. -/
def sotileBefore (k : Fin 256) : List Overwritten → List Block
  | [] => []
  | .spal _ _ :: old => sotileBefore k old
  | .sobj _ _ :: old => sotileBefore k old
  | .sotile j b :: old => if j = k then b :: sotileBefore k old else sotileBefore k old

/-- One of the values an element has held, the present one among them. -/
def pick {α : Type} (choice : Nat) (now : α) (before : List α) : α :=
  (now :: before).getD (choice % (before.length + 1)) now

/-- The input tables as the operation reads them for the output element `reader`: each element as it stands, or as it stood at
some time since the issue. -/
def State.seenFor (s : State) (reader : Site) (old : List Overwritten) : State :=
  { s with
    spal := .tabulate fun i => pick (Config.choice s.tick reader (.spal i)) (s.spal.read i) (spalBefore i old)
    sobj := .tabulate fun k => pick (Config.choice s.tick reader (.sobj k)) (s.sobj.read k) (sobjBefore k old)
    sotile := .tabulate fun k => pick (Config.choice s.tick reader (.sotile k 0)) (s.sotile.read k) (sotileBefore k old) }

/-- The input tables of `s`, all else as in `t`. -/
def State.withInputsOf (t s : State) : State := { t with spal := s.spal, sobj := s.sobj, sotile := s.sotile }

/-- A turn that reads the input tables so, and leaves them as they are. -/
def readingInputs (reader : Site) (old : List Overwritten) (turn : State → State) (s : State) : State :=
  (turn (s.seenFor reader old)).withInputsOf s

end Sys2Proof.Machine
end

