-- ==== Sys2Proof/Machine/Engine.lean ====
section
/-! DEFINITION. An operation in progress on its engine (10_state.md rule R30, 20_memory.md rules R60, R61): how it begins and
how its engine goes on, one element or slot at a time, in the order of the operation's pseudocode (log 10). -/

namespace Sys2Proof.Machine

/-- An accepted operation is in progress on its engine; OBJCONV begins by emptying its map (42_object.md rule R142). -/
def beginOp (i : Instr) (s : State) : State :=
  match i with
  | .lutinit => s.setFrameEngine (.lutinit 0)
  | .palconv => s.setFrameEngine (.palconv 0 [])
  | .objconv => (objStart s).setFrameEngine (.objconv 0 [])
  | .pfwrite addr data => s.setPfEngine (.accepted addr data)
  | .frame => s.setFrameEngine (.framePal 0 [])

/-- What follows entry `i` of a 256-entry loop: the next entry, or what comes after the loop. -/
def afterEntry (i : Fin 256) (again : FrameEngine → State) (next : Fin 256 → FrameEngine) (done : State) : State :=
  if h : i.val + 1 < 256 then again (next ⟨i.val + 1, h⟩) else done

/-- What follows slot `t` of the scan: the next slot, or what comes after the scan. -/
def afterSlot (t : Fin 48) (again : FrameEngine → State) (next : Fin 48 → FrameEngine) (done : State) : State :=
  if h : t.val + 1 < 48 then again (next ⟨t.val + 1, h⟩) else done

/-- PALCONV's turn for entry `i`, in an operation since whose issue the values `old` were overwritten. -/
def palTurn (i : Fin 256) (old : List Overwritten) (s : State) : State := readingInputs (.tct i) old (palEntry i) s

/-- OBJCONV's turn for slot `t`, in an operation since whose issue the values `old` were overwritten. -/
def objTurn (t : Fin 48) (old : List Overwritten) (s : State) : State :=
  readingInputs (.toam t) old (fun u => objSlot u t) s

/-- The frame engine does its next element or slot; an idle engine does nothing (60_exceptions.md rule R238). -/
def frameWork (s : State) : State :=
  match s.frameEngine with
  | .idle => s
  | .lutinit i =>
    let s' := lutEntry i s
    afterEntry i s'.setFrameEngine .lutinit (s'.setLutv.setFrameEngine .idle)
  | .palconv i old =>
    let s' := palTurn i old s
    afterEntry i s'.setFrameEngine (.palconv · old) ((palEnd s').setFrameEngine .idle)
  | .objconv t old =>
    let s' := objTurn t old s
    afterSlot t s'.setFrameEngine (.objconv · old) ((objEnd s').setFrameEngine .idle)
  | .framePal i old =>
    let s' := palTurn i old s
    afterEntry i s'.setFrameEngine (.framePal · old) ((objStart (palEnd s')).setFrameEngine (.frameObj 0 old))
  | .frameObj t old =>
    let s' := objTurn t old s
    afterSlot t s'.setFrameEngine (.frameObj · old) ((objEnd s').setFrameEngine .idle)

/-- The playfield engine does its next write; an idle engine does nothing. -/
def pfWork (s : State) : State :=
  match s.pfEngine with
  | .idle => s
  | .accepted addr data => (pfWriteA addr data s).setPfEngine (.halfway addr data)
  | .halfway addr data => (pfWriteB addr data s).setPfEngine .idle

/-- With no move of the host pending, operations in progress go on: "No operation suspends, blocks, retries, or times out"
(20_memory.md rule R60). The playfield write, nested in the frame step where both are in progress (60_exceptions.md rule
R235), goes first (log 9); when both engines are idle the block waits for a command (70_reset_and_hazards.md rule R250). -/
def goOn (s : State) : State :=
  if s.pfEngine = .idle then frameWork s else pfWork s

/-- `n` turns of the frame engine. -/
def frameTurns : Nat → State → State
  | 0, s => s
  | n + 1, s => frameTurns n (frameWork s)

/-- `n` turns of the playfield engine. -/
def pfTurns : Nat → State → State
  | 0, s => s
  | n + 1, s => pfTurns n (pfWork s)

/-- The engines go on in the order of `l`: an interleaving of the two (20_memory.md rule R61). -/
def interleave : List Engine → State → State
  | [], s => s
  | .frame :: l, s => interleave l (frameWork s)
  | .playfield :: l, s => interleave l (pfWork s)

/-- How many turns of its engine an operation takes (44_frame.md rule R222; 70_reset_and_hazards.md rule R251). -/
def turnsOf : Instr → Nat
  | .lutinit => 256
  | .palconv => 256
  | .objconv => 48
  | .pfwrite _ _ => 2
  | .frame => 304

end Sys2Proof.Machine
end

