-- ==== Sys2Proof/Machine/Port.lean ====
section
/-! DEFINITION. The command port and the other moves of the host (70_reset_and_hazards.md rules R250, R252, R260). -/

namespace Sys2Proof.Machine

/-- A reserved code: "the command completes and no state changes" (44_frame.md rule R221, 30_encoding.md rule R84). Log 5. -/
def reservedCommand (s : State) : State := s

/-- A command presented and run to completion. -/
def runCommand (w : Cmd) (s : State) : Host.Outcome State Fault Refusal :=
  match decode w with
  | .error _ => .next (reservedCommand s)
  | .ok i =>
    match s.busyFor i with
    | some r => .refused r
    | none => exec i (s.noteIssue i)

/-- A command presented; its operation is then in progress. -/
def issueCommand (w : Cmd) (s : State) : Host.Outcome State Fault Refusal :=
  match decode w with
  | .error _ => .next (reservedCommand s)
  | .ok i =>
    match s.busyFor i with
    | some r => .refused r
    | none => .next (beginOp i (s.noteIssue i))

/-- Boot step 5 of 70_reset_and_hazards.md rule R252, as one move, before the first PFWRITE and whatever the
frame engine does (log 15). -/
def clearMaps (s : State) : State :=
  { s with mapa := .tabulate fun _ => s.cfg.mapaClear, mapb := .tabulate fun _ => s.cfg.mapbClear }

/-- The reset event (70_reset_and_hazards.md rule R250): fresh free values, none drawn before (log 1). -/
def resetEvent (s : State) : State := State.afterReset s.cfg (s.tick + 1) s.inputs

/-- One move of the host, `s` the state with the move taken from the list. The clearing of the maps is accepted whatever the
frame engine does: R252 orders it only before the first PFWRITE, and R260 is silent on it while a frame operation is in
progress. DESIGN CHOICE, log 15. -/
def hostMove (m : HostMove) (s : State) : Host.Outcome State Fault Refusal :=
  match m with
  | .command w => runCommand w s
  | .issue w => issueCommand w s
  | .workFrame => .next (frameWork s)
  | .workPlayfield => .next (pfWork s)
  | .writeSpal i v => .next (s.hostWriteSpal i v)
  | .writeSobj k v => .next (s.hostWriteSobj k v)
  | .writeSotile k b => if s.cfg.blockOk b then .next (s.hostWriteSotile k b) else .refused .notABlock
  | .clearMaps => if s.pfIssued then .refused .mapsInUse else .next (clearMaps s)
  | .reset => .next (resetEvent s)

/-- The machine's next happening: the host's oldest pending move, or, when none is pending, the engines going on. -/
def nextHappening (s : State) : Host.Outcome State Fault Refusal :=
  match s.inputs with
  | [] => .next (goOn s)
  | m :: ms => hostMove m (s.setInputs ms)

/-- The state in which the very next happening is the command `w`: presented first, to idle engines. -/
def State.present (s : State) (w : Cmd) : State :=
  { s with inputs := .command w :: s.inputs, frameEngine := .idle, pfEngine := .idle }

end Sys2Proof.Machine
end

