-- ==== Sys2Proof/Machine/Step.lean ====
section
/-! DEFINITION. One step of the machine. The block fetches no instructions (10_state.md rule R30); what it runs is what the
host presents at the command port. -/

namespace Sys2Proof.Machine

/-- One step: the host's oldest pending move, or the engines going on. -/
def step (s : State) : Host.Outcome State Fault Refusal := nextHappening s

/-- The state in which the very next step runs the command whose bits are `w` (numbered as spec/opcode_table.json numbers
them). Log 3. -/
def State.withFetchWord (s : State) (nbits w : Nat) : State := s.present (tableWord nbits w)

end Sys2Proof.Machine
end

