-- ==== Sys2Proof/Machine/View.lean ====
section
/-! DEFINITION. What a reader of the output tables (the display, or the host reading back) may see while an operation is in
progress (20_memory.md rule R63, 70_reset_and_hazards.md rule R257, U6). -/

namespace Sys2Proof.Machine

/-- `view` is a mixture of `before` and `after`: each element of each output table is the old one or the new one,
independently of the others; a sprite entry and a block are never torn (20_memory.md rule R56). -/
def SeenDuring (before after view : State) : Prop :=
  (∀ i, view.tct.read i = before.tct.read i ∨ view.tct.read i = after.tct.read i) ∧
  (∀ d i, (view.topal.read d).read i = (before.topal.read d).read i ∨
    (view.topal.read d).read i = (after.topal.read d).read i) ∧
  (∀ t, view.tstage.read t = before.tstage.read t ∨ view.tstage.read t = after.tstage.read t) ∧
  (∀ t, view.toam.read t = before.toam.read t ∨ view.toam.read t = after.toam.read t) ∧
  (∀ i, view.mapa.read i = before.mapa.read i ∨ view.mapa.read i = after.mapa.read i) ∧
  (∀ i, view.mapb.read i = before.mapb.read i ∨ view.mapb.read i = after.mapb.read i)

end Sys2Proof.Machine
end

