-- ==== Sys2Proof/Safety.lean ====
section
/-! DEFINITION. What counts as a safe run, when a run is over, and the invariants of 10_state.md rule R40 in the terms the
statements use. -/

namespace Sys2Proof.Machine

/-- No step of `k` steps was refused: the host kept the duties that have no effect given for breaking them
(70_reset_and_hazards.md rule R260, log 4). A step never faults (60_exceptions.md rule R230). -/
def SafeRun (k : Nat) (s : State) : Prop := ∃ t, Host.Core.run Sys2Proof.core k s = .next t

/-- The run is over: nothing pending and no engine busy (70_reset_and_hazards.md rule R261). -/
def Quiescent (s : State) : Prop := s.inputs = [] ∧ s.frameEngine = .idle ∧ s.pfEngine = .idle

/-- "`LUTV`: 1 when every entry of `LUT` holds `lutword(b)`" (10_state.md rules R29, R40a). -/
def LutBuilt (s : State) : Prop := s.lutv = true → ∀ b : Byte, s.lut.read b.toFin = lutword b

/-- The entries LUTINIT has done so far hold their colour words (40_lut.md rule R113). -/
def LutBuiltSoFar (s : State) : Prop :=
  ∀ i, s.frameEngine = .lutinit i → ∀ b : Byte, b.toNat < i.val → s.lut.read b.toFin = lutword b

/-- "the set of non-zero values in `CMAP` is exactly `{1, ..., PCNT}`, each held by exactly one index" (10_state.md rule
R28). -/
def CompactionExact (s : State) : Prop :=
  (∀ p, (s.cmap.read p).toNat ≤ s.pcnt.toNat) ∧
  (∀ d : BitVec 4, 1 ≤ d.toNat → d.toNat ≤ s.pcnt.toNat →
    ∃ p, s.cmap.read p = d ∧ ∀ q, s.cmap.read q = d → q = p)

/-- OBJCONV, alone or as the second part of FRAME, is in progress. -/
def scanning (s : State) : Bool :=
  match s.frameEngine with
  | .idle => false
  | .lutinit _ => false
  | .palconv _ _ => false
  | .objconv _ _ => true
  | .framePal _ _ => false
  | .frameObj _ _ => true

/-- Rule R28's invariant, "during OBJCONV". -/
def CompactionInProgress (s : State) : Prop := scanning s = true → CompactionExact s

/-- `d` is the cell of the PFWRITE in progress that has one of its two writes done (70_reset_and_hazards.md rule R257). -/
def HalfDone (s : State) (d : Fin 4096) : Prop := ∃ addr data, s.pfEngine = .halfway addr data ∧ d = pfDest s.cfg addr

/-- The first write of a PFWRITE in the middle of its two stands in `MAPA`; or the host has cleared the maps since. That it is
`MAPA` that is written first is the model's choice (log 10; U6 leaves the order across tables open). -/
def FirstWriteStands (s : State) : Prop :=
  ∀ addr data, s.pfEngine = .halfway addr data →
    s.mapa.read (pfDest s.cfg addr) = pfWordA s.cfg data ∨ s.mapa.read (pfDest s.cfg addr) = s.cfg.mapaClear

/-- Cell `d` is owned by one map: the other holds its clear value (10_state.md rules R36, R40b). -/
def CellOwned (s : State) (d : Fin 4096) : Prop :=
  s.mapb.read d = s.cfg.mapbClear ∨ s.mapa.read d = s.cfg.mapaClear

/-- Every cell is owned by one map, but for a cell a PFWRITE is in the middle of. -/
def MapsPartitioned (s : State) : Prop := FirstWriteStands s ∧ ∀ d, HalfDone s d ∨ CellOwned s d

/-- What every step keeps, from any state: the invariants of 10_state.md rules R28 and R40a, the form of the memory
(30_encoding.md rule R95) and the ranges of the configuration (00_scope.md rule R9). -/
structure Inv (s : State) : Prop where
  lutBuilt : LutBuilt s
  lutBuiltSoFar : LutBuiltSoFar s
  compaction : CompactionInProgress s
  memory : Memory.wf s = true
  config : s.cfg.valid = true

/-- The move the next step takes is the reset event. -/
def resetNext (s : State) : Bool :=
  match s.inputs with
  | [] => false
  | .command _ :: _ => false
  | .issue _ :: _ => false
  | .workFrame :: _ => false
  | .workPlayfield :: _ => false
  | .writeSpal _ _ :: _ => false
  | .writeSobj _ _ :: _ => false
  | .writeSotile _ _ :: _ => false
  | .clearMaps :: _ => false
  | .reset :: _ => true

/-- Slot `t` holds a live object (42_object.md rule R144). -/
def liveSlot (s : State) (t : Fin 48) : Bool := live s.cfg (objEntry s t)

/-- The source palette of slot `t`'s object. -/
def slotPal (s : State) (t : Fin 48) : BitVec 5 := objPal (objEntry s t)

/-- The source palettes of the live objects, in scan order (42_object.md rule R143). -/
def livePalettes (s : State) : List (BitVec 5) := (slots.filter (liveSlot s)).map (slotPal s)

/-- A list without repeats, each value where it is first met. -/
def firstMet : List (BitVec 5) → List (BitVec 5)
  | [] => []
  | p :: ps => p :: (firstMet ps).filter (· ≠ p)

/-- First come, first served (42_object.md rule R148): the palette that is first met as the `n`-th distinct one gets slot
`n`, the 16th and later ones get slot 0. -/
def slotByRank (ps : List (BitVec 5)) (p : BitVec 5) : Nat :=
  if (firstMet ps).idxOf p < 15 then (firstMet ps).idxOf p + 1 else 0

end Sys2Proof.Machine
end

