-- ==== Sys2Proof/Certificates/Slice0/Obligations.lean ====
section
/-! DEFINITION. The statements about the block, for the provers. Each docstring names the rules of spec/ it formalises; where
a clause is a decision of the spec's own (92_eei_decisions.md) or a choice of the model's (the log), it says so. Where a
statement compares two runs, both draw their free values with the same counter (log 1): the runs differ in nothing the spec
leaves open. No statement rests on the value of a free value. -/

open Sys2Proof Sys2Proof.Machine

/-! ## Encoding (spec/30_encoding.md) -/

/-- Decode and encode agree on every operation with every operand, and no bit of a word that matters is dropped: a word that
decodes to an operation has its code, and is its encoding when it is a PFWRITE (rules R80, R81, R85, R100; the command word is
the spec's own decision D2). -/
def Obligations.DecodeAndEncodeAgree : Prop :=
  (∀ i : Instr, i.wf = true → decode (encode i) = .ok i) ∧
  (∀ (w : Cmd) (i : Instr), decode w = .ok i →
    cmdOp w = i.op ∧ (∀ addr data, i = .pfwrite addr data → encode i = w))

/-- Decoding is total: codes 0 to 4 select an operation, codes 5 to 7 are refused by name (rules R84, R100, U5; decisions D2,
D3). -/
def Obligations.DecodeIsTotalAndRefusesReserved : Prop :=
  ∀ w : Cmd,
    ((cmdOp w).toNat ≤ 4 → ∃ i, decode w = .ok i ∧ i.op = cmdOp w) ∧
    (5 ≤ (cmdOp w).toNat → decode w = .error (.reservedOp (cmdOp w)))

/-- The operand bits of the operations without operands are ignored (rule R85, decision D4). -/
def Obligations.OperandBitsIgnored : Prop :=
  ∀ w w' : Cmd, cmdOp w = cmdOp w' → cmdOp w ≠ 3#3 → decode w = decode w'

/-- Words of 95_test_vectors.md section 2.5 decode to the operations named there. -/
def Obligations.TabledWordsDecode : Prop :=
  decode 0x000000000#35 = .ok .lutinit ∧
  decode 0x1FFFFFFFF#35 = .ok .palconv ∧
  decode 0x200000000#35 = .ok .objconv ∧
  decode 0x300000905#35 = .ok (.pfwrite 0x0000#16 0x0905#16) ∧
  decode 0x3F8004905#35 = .ok (.pfwrite 0xF800#16 0x4905#16) ∧
  decode 0x400000000#35 = .ok .frame ∧
  decode 0x7FFFFFFFF#35 = .error (.reservedOp 7#3)

/-- `PFCELL idx, tile9, grp` is the inverse of the operand decoding of rules R89 and R90 (rule R99, decision D2). -/
def Obligations.PfcellInvertsOperandDecoding : Prop :=
  ∀ idx tile9 grp : Nat, idx < 1024 → tile9 < 512 → grp < 64 →
    ∃ w addr data, assemble (.pfcell idx tile9 grp) = some w ∧ decode w = .ok (.pfwrite addr data) ∧
      (pfIdx addr).toNat = idx ∧ (pfTile9 data).toNat = tile9 ∧ (pfGrp data).toNat = grp

/-! ## The colour function and LUTINIT (spec/40_lut.md) -/

/-- The expansions are rules R110 and R111 as they write them, and `lutword` packs them (rule R112; the field positions in the
byte and bit 15 are the spec's decisions D6, D7). -/
def Obligations.LutwordIsBitReplication : Prop :=
  (∀ f : BitVec 3, (expand3 f).toNat = ((f.toNat <<< 2) ||| (f.toNat >>> 1)) &&& 0x1F) ∧
  (∀ f : BitVec 2, (expand2 f).toNat = ((f.toNat <<< 3) ||| (f.toNat <<< 1) ||| (f.toNat >>> 1)) &&& 0x1F) ∧
  (∀ b : Byte, (lutword b).toNat =
    ((expand2 (BitVec.ofNat 2 b.toNat)).toNat <<< 10) |||
    ((expand3 (BitVec.ofNat 3 (b.toNat >>> 2))).toNat <<< 5) ||| (expand3 (BitVec.ofNat 3 (b.toNat >>> 5))).toNat)

/-- Properties of the colour function (rule R115, which the spec marks as derived): the two ends, bit 15, strictly increasing
expansions, injectivity. -/
def Obligations.LutwordProperties : Prop :=
  lutword 0x00#8 = 0x0000#16 ∧ lutword 0xFF#8 = 0x7FFF#16 ∧
  (∀ b : Byte, (lutword b).getLsbD 15 = false) ∧
  (∀ f g : BitVec 3, f < g → expand3 f < expand3 g) ∧
  (∀ f g : BitVec 2, f < g → expand2 f < expand2 g) ∧
  (∀ b c : Byte, lutword b = lutword c → b = c)

/-- LUTINIT completes in every state, fills the LUT, sets LUTV, and changes nothing else (rule R113; that it is a
command is decision D5). -/
def Obligations.LutinitBuildsTheLut : Prop :=
  ∀ s : State, ∃ t, exec .lutinit s = .next t ∧
    (∀ b : Byte, t.lut.read b.toFin = lutword b) ∧ t.lutv = true ∧
    t = { s with lut := t.lut, lutv := t.lutv }

/-- Repeating LUTINIT changes nothing (rule R116, which the spec marks as derived). -/
def Obligations.LutinitAgainChangesNothing : Prop :=
  ∀ s t : State, exec .lutinit s = .next t → exec .lutinit t = .next t

/-! ## PALCONV (spec/41_palette.md) -/

/-- PALCONV with the LUT built completes, converts every entry, and changes nothing but TCT (rule R130). -/
def Obligations.PalconvConvertsEveryEntry : Prop :=
  ∀ s : State, s.lutv = true → ∃ t, exec .palconv s = .next t ∧
    (∀ i, t.tct.read i = s.lut.read (s.spal.read i).toFin) ∧
    t = { s with tct := t.tct }

/-- PALCONV before the LUT is built completes and raises nothing; each entry of TCT is then `unspecified(16)`, the free value
of log 1, and nothing else changes but the model's counter of free values (rule R131; decision D5; log 6: the model runs on
where U2 lets a model fault). -/
def Obligations.PalconvWithoutLutCompletes : Prop :=
  ∀ s : State, s.lutv = false → ∃ t, exec .palconv s = .next t ∧
    (∀ i : Fin 256, t.tct.read i = Config.unspecified 16 s.tick (.tct i)) ∧
    t = { s with tct := t.tct, tick := t.tick }

/-- LUTINIT then PALCONV gives `TCT[i] = lutword(SPAL[i])` from every state (rules R113, R130; the corner case of R130). -/
def Obligations.BootThenPalconvGivesColourWords : Prop :=
  ∀ s t u : State, exec .lutinit s = .next t → exec .palconv t = .next u →
    ∀ i, u.tct.read i = lutword (s.spal.read i)

/-! ## OBJCONV (spec/42_object.md) -/

/-- OBJCONV completes in every state. It writes no table but TOAM, TSTAGE, TOPAL (and CMAP, PCNT, and the model's counter of
free values): not palette slot 0, not entries 4 to 15 of a slot (rules R157, R159). -/
def Obligations.ObjconvCompletesWithinItsTables : Prop :=
  ∀ s : State, ∃ t, exec .objconv s = .next t ∧
    t = { s with cmap := t.cmap, pcnt := t.pcnt, topal := t.topal, tstage := t.tstage, toam := t.toam, tick := t.tick } ∧
    t.topal.read 0 = s.topal.read 0 ∧
    (∀ d i : Fin 16, 4 ≤ i.val → (t.topal.read d).read i = (s.topal.read d).read i)

/-- A dead slot gets the disabled entry, and its staging place keeps its content (rule R145; the zero fields beside `en` are
decision D15). Dead is rule R144, decision D9. -/
def Obligations.DeadSlotIsDisabled : Prop :=
  ∀ (s : State) (k : Fin 48), live s.cfg (s.sobj.read ⟨k.val + 16, by omega⟩) = false →
    ∃ t, exec .objconv s = .next t ∧ t.toam.read k = .off ∧ t.tstage.read k = s.tstage.read k

/-- Liveness on the raw fields of the entry (rule R144; decision D9; the positions are rules R88 and R146, decision D8). -/
def Obligations.LivenessOnRawFields : Prop :=
  ∀ (c : Cfg) (e : Long), live c e = true ↔
    (e.toNat / 65536 % 256 ≠ c.objClearTile.toNat ∧
      c.objYLo.toNat ≤ e.toNat % 256 ∧ e.toNat % 256 ≤ c.objYHi.toNat)

/-- A live slot: its tiles are staged in its own place (rule R150), and its entry is enabled, has the flips of the object, its
own place, and the converted position (rules R151, R152, R153; decisions D8, D14, D15, D16). The palette slot is
`PalettesFirstComeFirstServed`. -/
def Obligations.LiveSlotIsConverted : Prop :=
  ∀ (s : State) (k : Fin 48) (e : Long), e = s.sobj.read ⟨k.val + 16, by omega⟩ → live s.cfg e = true →
    ∃ t, exec .objconv s = .next t ∧
      t.tstage.read k = s.sotile.read ⟨e.toNat / 65536 % 256, by omega⟩ ∧
      (t.toam.read k).en = true ∧
      (t.toam.read k).hflip = e.getLsbD 31 ∧ (t.toam.read k).vflip = e.getLsbD 30 ∧
      (t.toam.read k).tsel.toNat = k.val ∧
      (t.toam.read k).x.toNat = (e.toNat / 256 % 256 + 8 + s.cfg.objInsetX.toNat) % 65536 ∧
      ((t.toam.read k).y.toNat : Int) =
        ((s.cfg.objYBias.toNat : Int) - (e.toNat % 256 : Nat) + s.cfg.objInsetY.toNat) % 65536

/-- First come, first served: the palette slot of a live object is the rank of its palette among the distinct palettes of the
live objects in scan order, and 0 from the 16th on (rules R147, R148; scan order R143, decisions D10, D11). The palette is the
field 28:24 of the entry of slot k + 16 (rules R88, R146; decision D8). -/
def Obligations.PalettesFirstComeFirstServed : Prop :=
  ∀ s : State,
    (∀ k : Fin 48, liveSlot s k = live s.cfg (s.sobj.read ⟨k.val + 16, by omega⟩) ∧
      (slotPal s k).toNat = (s.sobj.read ⟨k.val + 16, by omega⟩).toNat / 2 ^ 24 % 32) ∧
    ∃ t, exec .objconv s = .next t ∧
      ∀ k, liveSlot s k = true → (t.toam.read k).pal.toNat = slotByRank (livePalettes s) (slotPal s k)

/-- What is published: the slot of a live object holds the four colours of its palette, through the LUT; a slot no object is
given keeps its content (rule R149; decision D12). The palette of a live object is the field 28:24 of its entry (rules R88, R146;
decision D8). -/
def Obligations.AssignedPalettesArePublished : Prop :=
  ∀ s : State, s.lutv = true → ∃ t, exec .objconv s = .next t ∧
    (∀ k, liveSlot s k = true → (t.toam.read k).pal ≠ 0#4 → ∀ i : Fin 4,
      (t.topal.read (t.toam.read k).pal.toFin).read ⟨i.val, by omega⟩ =
        s.lut.read (s.spal.read ⟨4 * ((s.sobj.read ⟨k.val + 16, by omega⟩).toNat / 2 ^ 24 % 32) + i.val, by omega⟩).toFin) ∧
    (∀ d : BitVec 4, (∀ k, liveSlot s k = true → (t.toam.read k).pal ≠ d) →
      t.topal.read d.toFin = s.topal.read d.toFin)

/-- Two live objects with the same source palette get the same palette slot, beyond capacity too (rule R156 (a), which the spec
marks as derived). -/
def Obligations.SharedPaletteSharedSlot : Prop :=
  ∀ (s t : State) (j k : Fin 48), exec .objconv s = .next t →
    liveSlot s j = true → liveSlot s k = true → slotPal s j = slotPal s k →
    (t.toam.read j).pal = (t.toam.read k).pal

/-- The non-zero palette slots in use after OBJCONV are exactly 1 to some number of at most 15 (rule R156 (d), which the spec
marks as derived). -/
def Obligations.PaletteSlotsInUseAreAnInterval : Prop :=
  ∀ s t : State, exec .objconv s = .next t → ∃ n, n ≤ 15 ∧
    ∀ d : BitVec 4, d ≠ 0#4 → ((∃ k, (t.toam.read k).pal = d) ↔ d.toNat ≤ n)

/-- Slots 0 to 15 of SOBJ and bit 29 of an entry have no effect (rules R158, R146; bit 29 is decision D8): two states that
differ in nothing else end in states that differ in nothing else. That CMAP, PCNT and, without the LUT, the published colours
agree in the two runs is log 1: both draw their free values with the same counter. -/
def Obligations.UnusedObjectBitsHaveNoEffect : Prop :=
  ∀ (s : State) (sobj' : Table Long 64),
    (∀ k : Fin 64, 16 ≤ k.val → ∀ j : Nat, j ≠ 29 → (sobj'.read k).getLsbD j = (s.sobj.read k).getLsbD j) →
    ∃ t, exec .objconv s = .next t ∧ exec .objconv { s with sobj := sobj' } = .next { t with sobj := sobj' }

/-- Repeating OBJCONV with the LUT built and unchanged inputs leaves the outputs as the first execution left them (20_memory.md
rule R57, 42_object.md rule R142). -/
def Obligations.ObjconvAgainChangesNoOutput : Prop :=
  ∀ s t u : State, s.lutv = true → exec .objconv s = .next t → exec .objconv t = .next u →
    u.toam = t.toam ∧ u.tstage = t.tstage ∧ u.topal = t.topal

/-- Without the LUT, OBJCONV completes and ends as with it but for LUTV and TOPAL (rule R141; decision D5; that it runs on is
log 6). In TOPAL each colour published for a live object is the free value of its element, and a slot no live object is given
keeps its content. That CMAP and PCNT agree in the two runs is log 1. -/
def Obligations.ObjconvWithoutLutDiffersInColoursOnly : Prop :=
  ∀ s : State, s.lutv = false → ∃ t u, exec .objconv s = .next t ∧ exec .objconv { s with lutv := true } = .next u ∧
    u = { t with lutv := true, topal := u.topal } ∧
    (∀ k, liveSlot s k = true → (t.toam.read k).pal ≠ 0#4 → ∀ i : Fin 4,
      (t.topal.read (t.toam.read k).pal.toFin).read ⟨i.val, by omega⟩ =
        Config.unspecified 16 s.tick (.topal (t.toam.read k).pal.toNat i.val)) ∧
    (∀ d : BitVec 4, (∀ k, liveSlot s k = true → (t.toam.read k).pal ≠ d) →
      t.topal.read d.toFin = s.topal.read d.toFin)

/-! ## PFWRITE (spec/43_playfield.md) -/

/-- PFWRITE completes in every state at every operand and does what rule R193's pseudocode does over integers: two elements
written, one in each map at one index, and nothing else changed (rules R181, R188, R193; the
layouts, the pair, the index and the packing are decisions D18 to D24). -/
def Obligations.PfwriteWritesTheComputedCells : Prop :=
  ∀ (addr value : Word) (s : State),
    let idx := addr.toNat / 2 % 1024
    let tile9 := 256 * (value.toNat / 32768) + value.toNat % 256
    let grp := value.toNat / 256 % 64
    let hi := idx / 32
    let lo := idx % 32
    let delta : Int := match s.cfg.pfRotDelta with | .plusOne => 1 | .minusOne => -1
    let col := match s.cfg.pfRotAxis with | .col => (((hi : Int) + delta) % 32).toNat | .row => hi
    let row := match s.cfg.pfRotAxis with | .col => lo | .row => (((lo : Int) + delta) % 32).toNat
    let drow := (row + s.cfg.pfInsetRow.toNat) % 64
    let dcol := (col + s.cfg.pfInsetCol.toNat) % 64
    let logo := s.cfg.pfLogoT.toNat
    let dt := if tile9 < logo then 4 * tile9 + grp % 4 else 4 * logo + (tile9 - logo)
    let e := BitVec.ofNat 16 (4096 * (grp / 4) + dt % 1024)
    ∃ (t : State) (di : Fin 4096), exec (.pfwrite addr value) s = .next t ∧ di.val = drow * 64 + dcol ∧
      t = { s with
        mapa := s.mapa.write di (if dt < 1024 then e else s.cfg.mapaClear)
        mapb := s.mapb.write di (if dt < 1024 then s.cfg.mapbClear else e) }

/-- The destination tile index fits the two maps, and quadrupled and compacted tiles never collide (rule R190, which the spec
marks as derived). -/
def Obligations.DestinationTileFitsTwoMaps : Prop :=
  ∀ (c : Cfg) (v w : Word), c.pfLogoT.toNat ≤ 512 →
    pfDestTile c v ≤ 2047 ∧
    ((pfTile9 v).toNat < c.pfLogoT.toNat → c.pfLogoT.toNat ≤ (pfTile9 w).toNat → pfDestTile c v < pfDestTile c w)

/-- PFWRITE twice is PFWRITE once (rule R194, which the spec marks as derived). -/
def Obligations.PfwriteIsIdempotent : Prop :=
  ∀ (addr value : Word) (s t : State), exec (.pfwrite addr value) s = .next t → exec (.pfwrite addr value) t = .next t

/-- The mapping of cells is injective for every configuration (rule R197, which the spec marks as derived; decisions D19
to D21). -/
def Obligations.CellMappingIsInjective : Prop :=
  ∀ (c : Cfg) (a b : Word), pfDest c a = pfDest c b ↔ pfIdx a = pfIdx b

/-- Bits 0 and 15:11 of the address and bit 14 of the value have no effect (rules R85, R196; decision D4). -/
def Obligations.PfwriteIgnoredBitsHaveNoEffect : Prop :=
  ∀ (a a' v v' : Word) (s : State),
    (∀ j : Nat, 1 ≤ j → j ≤ 10 → a.getLsbD j = a'.getLsbD j) → (∀ j : Nat, j ≠ 14 → v.getLsbD j = v'.getLsbD j) →
    exec (.pfwrite a v) s = exec (.pfwrite a' v') s

/-- After any sequence of PFWRITEs, the last one that targeted a cell decides it: the map that does not own it holds its clear
value, the owning map the computed entry; a cell none targeted is as before (rule R195, which the spec marks as derived). -/
def Obligations.LastPfwriteDecidesTheCell : Prop :=
  ∀ (s : State) (before after : List (Word × Word)) (addr value : Word) (t : State),
    (∀ w ∈ after, pfDest s.cfg w.1 ≠ pfDest s.cfg addr) →
    (before ++ (addr, value) :: after).foldl (fun u w => pfwrite w.1 w.2 u) s = t →
    (pfDestTile s.cfg value < 1024 →
      t.mapa.read (pfDest s.cfg addr) = pfEntry s.cfg value ∧ t.mapb.read (pfDest s.cfg addr) = s.cfg.mapbClear) ∧
    (1024 ≤ pfDestTile s.cfg value →
      t.mapa.read (pfDest s.cfg addr) = s.cfg.mapaClear ∧ t.mapb.read (pfDest s.cfg addr) = pfEntry s.cfg value) ∧
    (∀ d, (∀ w ∈ before ++ (addr, value) :: after, pfDest s.cfg w.1 ≠ d) →
      t.mapa.read d = s.mapa.read d ∧ t.mapb.read d = s.mapb.read d)

/-! ## FRAME (spec/44_frame.md) -/

/-- FRAME completes in every state and is PALCONV and then OBJCONV (rule R220; that it is a command is decision D2). -/
def Obligations.FrameIsPalconvThenObjconv : Prop :=
  ∀ s : State, ∃ t u, exec .palconv s = .next t ∧ exec .objconv t = .next u ∧ exec .frame s = .next u

/-- With the LUT built, the other order gives the same final state (the corner case of rule R220). -/
def Obligations.FrameOrderIsNotObservable : Prop :=
  ∀ s : State, s.lutv = true → ∃ t u, exec .objconv s = .next t ∧ exec .palconv t = .next u ∧ exec .frame s = .next u

/-! ## The two engines (spec/20_memory.md, spec/60_exceptions.md) -/

/-- An operation done element by element by its engine ends where the operation as one step ends (rules R30, R60; the order is
the pseudocode's of R113, R130, R154, R193, R220). That a turn is one entry, one slot or one map write is log 10. -/
def Obligations.EngineTurnsEqualTheOperation : Prop :=
  ∀ (i : Instr) (s : State), s.frameEngine = .idle → s.pfEngine = .idle →
    match engineOf i with
    | .frame => exec i s = .next (frameTurns (turnsOf i) (beginOp i s))
    | .playfield => exec i s = .next (pfTurns (turnsOf i) (beginOp i s))

/-- Every interleaving of the two engines gives the state of either sequential order (rule R61, which the spec marks as
derived). The turns that are interleaved are those of log 10. -/
def Obligations.EveryInterleavingIsSequential : Prop :=
  ∀ (l : List Engine) (s : State),
    interleave l s = pfTurns (l.count .playfield) (frameTurns (l.count .frame) s) ∧
    interleave l s = frameTurns (l.count .frame) (pfTurns (l.count .playfield) s)

/-- A PFWRITE before or after a frame operation gives the same state (rules R61, R220). -/
def Obligations.PfwriteCommutesWithFrameOperations : Prop :=
  ∀ (i : Instr) (addr data : Word) (s : State), engineOf i = .frame →
    ∃ t u v, exec i s = .next t ∧ exec (.pfwrite addr data) t = .next v ∧
      exec (.pfwrite addr data) s = .next u ∧ exec i u = .next v

/-- A reader during a frame operation sees, element by element, the old value or the new one (rule R63, decision D25): every
state between the turns of the operation is such a mixture. That these states are what the machine shows between its turns is
log 10; PFWRITE is `PfwriteIsSeenHalfDone`. -/
def Obligations.ReaderSeesOldOrNewElements : Prop :=
  ∀ (i : Instr) (s t : State) (k : Nat), engineOf i = .frame → s.frameEngine = .idle → exec i s = .next t →
    k ≤ turnsOf i → SeenDuring s t (frameTurns k (beginOp i s))

/-- During a PFWRITE a reader may see the new entry in map A with the old entry in map B at the same index (rule R257; decision
D25), and sees no other cell changed. That one write is a turn and that map A is written first is the model's choice, in the
order of the pseudocode (log 10): the spec leaves the order across tables open (U6). -/
def Obligations.PfwriteIsSeenHalfDone : Prop :=
  ∀ (addr data : Word) (s : State), s.pfEngine = .idle →
    let u := pfTurns 1 (beginOp (.pfwrite addr data) s)
    u.mapa.read (pfDest s.cfg addr) = pfWordA s.cfg data ∧ u.mapb = s.mapb ∧
    (∀ d, d ≠ pfDest s.cfg addr → u.mapa.read d = s.mapa.read d)

/-! ## Steps, the host and reset (spec/70_reset_and_hazards.md) -/

/-- A step runs the decoded operation: the oldest pending command, presented to an engine that is idle, is executed; the move
is taken from the list, and the model notes a PFWRITE for the duty of rule R252 (log 3). -/
def Obligations.StepRunsThePresentedCommand : Prop :=
  ∀ (s : State) (w : Cmd) (i : Instr) (ms : List HostMove),
    s.inputs = .command w :: ms → decode w = .ok i → s.busyFor i = none →
    step s = exec i ((s.setInputs ms).noteIssue i)

/-- A command may also only be started; its operation is then in progress, and its engine goes on at the host's moves or, with
no move pending, of itself, the playfield engine first (rules R60, R61; decision D25; logs 3, 9 and 10). -/
def Obligations.StepStartsAndAdvancesOperations : Prop :=
  ∀ (s : State) (ms : List HostMove),
    (∀ w i, s.inputs = .issue w :: ms → decode w = .ok i → s.busyFor i = none →
      step s = .next (beginOp i ((s.setInputs ms).noteIssue i))) ∧
    (s.inputs = .workFrame :: ms → step s = .next (frameWork (s.setInputs ms))) ∧
    (s.inputs = .workPlayfield :: ms → step s = .next (pfWork (s.setInputs ms))) ∧
    (s.inputs = [] → s.pfEngine ≠ .idle → step s = .next (pfWork s)) ∧
    (s.inputs = [] → s.pfEngine = .idle → step s = .next (frameWork s))

/-- A reserved code completes and changes no state; only the command is taken (rules R84, R221; decision D3; log 5). -/
def Obligations.ReservedCommandChangesNothing : Prop :=
  ∀ (s : State) (w : Cmd) (ms : List HostMove),
    s.inputs = .command w :: ms ∨ s.inputs = .issue w :: ms → 5 ≤ (cmdOp w).toNat →
    step s = .next (s.setInputs ms)

/-- Nothing raises: every operation completes from every state, and no step faults (60_exceptions.md rule R230). -/
def Obligations.NothingRaises : Prop :=
  (∀ (i : Instr) (s : State), ∃ t, exec i s = .next t) ∧ (∀ (s : State) (f : Fault), step s ≠ .fault f)

/-- A command for a busy engine is no move of the host, but a PFWRITE may come while a frame operation is in progress and the
other way round (rules R255, R256, R235, R260; decision D28; log 4). -/
def Obligations.BusyEngineTakesNoCommand : Prop :=
  ∀ (s : State) (w : Cmd) (i : Instr) (ms : List HostMove),
    s.inputs = .command w :: ms ∨ s.inputs = .issue w :: ms → decode w = .ok i →
    (engineOf i = .frame → s.frameEngine ≠ .idle → step s = .refused .frameBusy) ∧
    (engineOf i = .frame → s.frameEngine = .idle → ∃ t, step s = .next t) ∧
    (engineOf i = .playfield → s.pfEngine ≠ .idle → step s = .refused .playfieldBusy) ∧
    (engineOf i = .playfield → s.pfEngine = .idle → ∃ t, step s = .next t)

/-- The host's writes of the input tables while no operation that reads them is in progress: one element, whole (rules R62,
R260, R51). -/
def Obligations.HostWritesInputsBetweenOperations : Prop :=
  ∀ (s : State) (ms : List HostMove), (s.frameEngine = .idle ∨ ∃ j, s.frameEngine = .lutinit j) →
    (∀ i v, s.inputs = .writeSpal i v :: ms → step s = .next { s with inputs := ms, spal := s.spal.write i v }) ∧
    (∀ k v, s.inputs = .writeSobj k v :: ms → step s = .next { s with inputs := ms, sobj := s.sobj.write k v }) ∧
    (∀ k b, s.inputs = .writeSotile k b :: ms → b.length = s.cfg.blockWords →
      step s = .next { s with inputs := ms, sotile := s.sotile.write k b })

/-- Boot step 5: before the first PFWRITE the host clears both maps, and every cell is then owned (rule R252; decision D27).
That the clearing is one move, and accepted whatever the frame engine does, is log 15; the note of a PFWRITE and the refusal
after one are logs 3 and 4. -/
def Obligations.BootClearsBothMaps : Prop :=
  ∀ (s : State) (ms : List HostMove), s.inputs = .clearMaps :: ms →
    (s.pfIssued = true → step s = .refused .mapsInUse) ∧
    (s.pfIssued = false → ∃ t, step s = .next t ∧
      (∀ d, t.mapa.read d = s.cfg.mapaClear ∧ t.mapb.read d = s.cfg.mapbClear) ∧
      t = { s with inputs := ms, mapa := t.mapa, mapb := t.mapb })

/-- The reset event: both engines idle, LUTV 0, the configuration and the host's later moves kept; nothing is promised of the
rest (rules R250, R39; decision D27; log 8). -/
def Obligations.ResetEventIdlesTheEngines : Prop :=
  ∀ (s : State) (ms : List HostMove), s.inputs = .reset :: ms → ∃ t, step s = .next t ∧
    t.lutv = false ∧ t.frameEngine = .idle ∧ t.pfEngine = .idle ∧ t.cfg = s.cfg ∧ t.inputs = ms

/-- After power-on the block waits for a command, with LUTV 0 and both engines idle (rules R39, R250; decision D27). -/
def Obligations.PowerOnWaitsForACommand : Prop :=
  State.reset.lutv = false ∧ Quiescent State.reset ∧ (∀ s : State, Quiescent s → step s = .next s)

/-- With nothing more pending, the operations in progress complete within 306 steps and the run is over (that every operation
terminates is 44_frame.md rule R222, the end of a run 70_reset_and_hazards.md rule R261). The bound counts the model's steps: a
step with no move pending gives one turn (log 3), the playfield engine first (log 9), one element a turn (log 10). -/
def Obligations.OperationsInProgressComplete : Prop :=
  ∀ s : State, s.inputs = [] → ∃ k t, k ≤ 306 ∧ Host.Core.run Sys2Proof.core k s = .next t ∧ Quiescent t

/-! ## Whole-machine rules and invariants -/

/-- Every step keeps the invariant, from any state: a built LUT holds `lutword` (rules R29, R40a), the compaction map is exact
while OBJCONV scans (rule R28), blocks keep their length (rule R95), the configuration its ranges (rule R9). -/
def Obligations.EveryStepKeepsTheInvariant : Prop :=
  ∀ s t : State, Inv s → step s = .next t → Inv t

/-- The invariant holds after power-on (that the configuration is inside its ranges is the choice of log 2). -/
def Obligations.PowerOnMeetsTheInvariant : Prop := Inv State.reset

/-- Every step but the reset event keeps each cell owned by one map, but for the cell a PFWRITE is in the middle of (rules R36,
R40b, R195). For that cell it keeps `FirstWriteStands`: MAPA holds the first of the two writes (or, the maps cleared, its clear
value). That one write is a turn and that MAPA is written first is the model's choice (log 10): the spec leaves the order across
tables open (U6). That the clearing of the maps is one move is log 15. -/
def Obligations.EveryStepKeepsTheMapsPartitioned : Prop :=
  ∀ s t : State, MapsPartitioned s → resetNext s = false → step s = .next t → MapsPartitioned t

/-- The LUT is immutable once built: only the reset event changes it or clears LUTV (rules R24, R29, R114). -/
def Obligations.BuiltLutIsImmutable : Prop :=
  ∀ s t : State, LutBuilt s → s.lutv = true → resetNext s = false → step s = .next t → t.lut = s.lut ∧ t.lutv = true

/-- The configuration never changes (rule R9: constant for the life of the block; that it stands in State is log 2). -/
def Obligations.ConfigurationNeverChanges : Prop :=
  ∀ s t : State, step s = .next t → t.cfg = s.cfg

/-- Who writes what (rule R38): no operation writes an input table; the frame operations write no map; PFWRITE writes nothing
but the maps. -/
def Obligations.OperationsWriteOnlyWhatTheyOwn : Prop :=
  ∀ (i : Instr) (s t : State), exec i s = .next t →
    (t.spal = s.spal ∧ t.sobj = s.sobj ∧ t.sotile = s.sotile) ∧
    (engineOf i = .frame → t.mapa = s.mapa ∧ t.mapb = s.mapb) ∧
    (engineOf i = .playfield → t = { s with mapa := t.mapa, mapb := t.mapb })

/-! ## Host writes while an operation that reads the input tables is in progress (20_memory.md rule R62, U4) -/

/-- The host's writes of the input tables while PALCONV, OBJCONV or FRAME is in progress, which its duty forbids (rule R254):
the element is replaced, and the operation remembers the value overwritten (rule R62, U4; decision D28). How it is remembered,
and that the counter of free values moves on, is log 11. -/
def Obligations.HostWriteDuringAnOperationIsRemembered : Prop :=
  ∀ (s : State) (ms : List HostMove), s.frameEngine ≠ .idle → (∀ j, s.frameEngine ≠ .lutinit j) →
    (∀ i v, s.inputs = .writeSpal i v :: ms → step s = .next
      { s with
        inputs := ms, spal := s.spal.write i v, tick := s.tick + 1
        frameEngine := s.frameEngine.note (.spal i (s.spal.read i)) }) ∧
    (∀ k v, s.inputs = .writeSobj k v :: ms → step s = .next
      { s with
        inputs := ms, sobj := s.sobj.write k v, tick := s.tick + 1
        frameEngine := s.frameEngine.note (.sobj k (s.sobj.read k)) }) ∧
    (∀ k b, s.inputs = .writeSotile k b :: ms → b.length = s.cfg.blockWords → step s = .next
      { s with
        inputs := ms, sotile := s.sotile.write k b, tick := s.tick + 1
        frameEngine := s.frameEngine.note (.sotile k (s.sotile.read k)) }) ∧
    (∀ o, (s.frameEngine.note o).overwritten = o :: s.frameEngine.overwritten)

/-- PALCONV, alone or in FRAME, reads each element of SPAL as it stands or as it stood at some time since the issue, and writes
the entry that value gives (rules R62, R130; decision D28; logs 10 and 11). The input tables are left alone. -/
def Obligations.PalconvReadsOldOrNewInputs : Prop :=
  ∀ (s : State) (i : Fin 256) (old : List Overwritten),
    s.frameEngine = .palconv i old ∨ s.frameEngine = .framePal i old →
    (∃ v, (v = s.spal.read i ∨ .spal i v ∈ old) ∧
      (frameWork s).tct.read i =
        if s.lutv then s.lut.read v.toFin else Config.unspecified 16 s.tick (.tct i)) ∧
    (∀ j, j ≠ i → (frameWork s).tct.read j = s.tct.read j) ∧
    (frameWork s).spal = s.spal ∧ (frameWork s).sobj = s.sobj ∧ (frameWork s).sotile = s.sotile

/-- OBJCONV, alone or in FRAME, reads the object of a slot, its block and the colours it publishes each as it stands or as it
stood at some time since the issue, independently, and writes what those values give (rules R62, R154; decision D28; logs 10
and 11). The input tables are left alone. -/
def Obligations.ObjconvReadsOldOrNewInputs : Prop :=
  ∀ (s : State) (k : Fin 48) (old : List Overwritten),
    s.frameEngine = .objconv k old ∨ s.frameEngine = .frameObj k old →
    (∃ e : Long, (e = s.sobj.read ⟨k.val + 16, by omega⟩ ∨ .sobj ⟨k.val + 16, by omega⟩ e ∈ old) ∧
      (live s.cfg e = false → (frameWork s).toam.read k = .off ∧ (frameWork s).tstage = s.tstage ∧
        (frameWork s).topal = s.topal) ∧
      (live s.cfg e = true →
        (frameWork s).toam.read k = liveEntry s.cfg e k
          (if s.cmap.read (objPal e).toFin ≠ 0#4 then s.cmap.read (objPal e).toFin
            else if s.pcnt < 15#4 then s.pcnt + 1#4 else 0#4) ∧
        (∃ b, (b = s.sotile.read (objTile e).toFin ∨ .sotile (objTile e).toFin b ∈ old) ∧
          (frameWork s).tstage.read k = b) ∧
        (s.cmap.read (objPal e).toFin = 0#4 → s.pcnt < 15#4 → ∀ i : Fin 4,
          ∃ v, (v = s.spal.read (palColourIndex (objPal e) i) ∨ .spal (palColourIndex (objPal e) i) v ∈ old) ∧
            ((frameWork s).topal.read (s.pcnt + 1#4).toFin).read ⟨i.val, by omega⟩ =
              if s.lutv then s.lut.read v.toFin
              else Config.unspecified 16 s.tick (.topal (s.pcnt + 1#4).toNat i.val)))) ∧
    (frameWork s).spal = s.spal ∧ (frameWork s).sobj = s.sobj ∧ (frameWork s).sotile = s.sotile
end

