-- ==== Sys2Proof/Laws/Decode.lean ====
section
/-! SUPPORT. The fields of an encoded operation (30_encoding.md rules R80, R85). -/

namespace Sys2Proof

theorem cmd_toNat (op : BitVec 3) (addr data : Word) :
    (op ++ addr ++ data : Cmd).toNat = 4294967296 * op.toNat + 65536 * addr.toNat + data.toNat := by
  have hd := data.isLt
  have ha := addr.isLt
  rw [BitVec.toNat_append, BitVec.toNat_append, ← Nat.shiftLeft_add_eq_or_of_lt (by omega),
    ← Nat.shiftLeft_add_eq_or_of_lt (by omega)]
  simp only [Nat.shiftLeft_eq]
  omega

@[simp] theorem cmdOp_encode (i : Instr) : cmdOp (encode i) = i.op := by
  apply BitVec.eq_of_toNat_eq
  have h1 := i.dataField.isLt
  have h2 := i.addrField.isLt
  have h3 := i.op.isLt
  simp only [cmdOp, encode, BitVec.extractLsb'_toNat, cmd_toNat, Nat.shiftRight_eq_div_pow]
  omega

@[simp] theorem cmdAddr_encode (i : Instr) : cmdAddr (encode i) = i.addrField := by
  apply BitVec.eq_of_toNat_eq
  have h1 := i.dataField.isLt
  have h2 := i.addrField.isLt
  simp only [cmdAddr, encode, BitVec.extractLsb'_toNat, cmd_toNat, Nat.shiftRight_eq_div_pow]
  omega

@[simp] theorem cmdData_encode (i : Instr) : cmdData (encode i) = i.dataField := by
  apply BitVec.eq_of_toNat_eq
  have h1 := i.dataField.isLt
  simp only [cmdData, encode, BitVec.extractLsb'_toNat, cmd_toNat, Nat.shiftRight_eq_div_pow]
  omega

/-- A command word is its three fields. -/
theorem cmd_fields (w : Cmd) : cmdOp w ++ cmdAddr w ++ cmdData w = w := by
  apply BitVec.eq_of_toNat_eq
  have h := w.isLt
  rw [cmd_toNat]
  simp only [cmdOp, cmdAddr, cmdData, BitVec.extractLsb'_toNat, Nat.shiftRight_eq_div_pow]
  omega

end Sys2Proof
end

