-- ==== Sys2Proof/Laws/State.lean ====
section
/-! SUPPORT. One lemma per field per named update of State, each true by rfl. -/

namespace Sys2Proof.Machine

variable (s : State)

@[simp] theorem State.writeSpal_spal (i : Fin 256) (v : Byte) : (s.writeSpal i v).spal = s.spal.write i v := rfl
@[simp] theorem State.writeSpal_sobj (i : Fin 256) (v : Byte) : (s.writeSpal i v).sobj = s.sobj := rfl
@[simp] theorem State.writeSpal_sotile (i : Fin 256) (v : Byte) : (s.writeSpal i v).sotile = s.sotile := rfl
@[simp] theorem State.writeSpal_lut (i : Fin 256) (v : Byte) : (s.writeSpal i v).lut = s.lut := rfl
@[simp] theorem State.writeSpal_lutv (i : Fin 256) (v : Byte) : (s.writeSpal i v).lutv = s.lutv := rfl
@[simp] theorem State.writeSpal_cmap (i : Fin 256) (v : Byte) : (s.writeSpal i v).cmap = s.cmap := rfl
@[simp] theorem State.writeSpal_pcnt (i : Fin 256) (v : Byte) : (s.writeSpal i v).pcnt = s.pcnt := rfl
@[simp] theorem State.writeSpal_tct (i : Fin 256) (v : Byte) : (s.writeSpal i v).tct = s.tct := rfl
@[simp] theorem State.writeSpal_topal (i : Fin 256) (v : Byte) : (s.writeSpal i v).topal = s.topal := rfl
@[simp] theorem State.writeSpal_tstage (i : Fin 256) (v : Byte) : (s.writeSpal i v).tstage = s.tstage := rfl
@[simp] theorem State.writeSpal_toam (i : Fin 256) (v : Byte) : (s.writeSpal i v).toam = s.toam := rfl
@[simp] theorem State.writeSpal_mapa (i : Fin 256) (v : Byte) : (s.writeSpal i v).mapa = s.mapa := rfl
@[simp] theorem State.writeSpal_mapb (i : Fin 256) (v : Byte) : (s.writeSpal i v).mapb = s.mapb := rfl
@[simp] theorem State.writeSpal_frameEngine (i : Fin 256) (v : Byte) : (s.writeSpal i v).frameEngine = s.frameEngine := rfl
@[simp] theorem State.writeSpal_pfEngine (i : Fin 256) (v : Byte) : (s.writeSpal i v).pfEngine = s.pfEngine := rfl
@[simp] theorem State.writeSpal_cfg (i : Fin 256) (v : Byte) : (s.writeSpal i v).cfg = s.cfg := rfl
@[simp] theorem State.writeSpal_inputs (i : Fin 256) (v : Byte) : (s.writeSpal i v).inputs = s.inputs := rfl
@[simp] theorem State.writeSpal_pfIssued (i : Fin 256) (v : Byte) : (s.writeSpal i v).pfIssued = s.pfIssued := rfl
@[simp] theorem State.writeSpal_tick (i : Fin 256) (v : Byte) : (s.writeSpal i v).tick = s.tick := rfl

@[simp] theorem State.writeSobj_spal (i : Fin 64) (v : Long) : (s.writeSobj i v).spal = s.spal := rfl
@[simp] theorem State.writeSobj_sobj (i : Fin 64) (v : Long) : (s.writeSobj i v).sobj = s.sobj.write i v := rfl
@[simp] theorem State.writeSobj_sotile (i : Fin 64) (v : Long) : (s.writeSobj i v).sotile = s.sotile := rfl
@[simp] theorem State.writeSobj_lut (i : Fin 64) (v : Long) : (s.writeSobj i v).lut = s.lut := rfl
@[simp] theorem State.writeSobj_lutv (i : Fin 64) (v : Long) : (s.writeSobj i v).lutv = s.lutv := rfl
@[simp] theorem State.writeSobj_cmap (i : Fin 64) (v : Long) : (s.writeSobj i v).cmap = s.cmap := rfl
@[simp] theorem State.writeSobj_pcnt (i : Fin 64) (v : Long) : (s.writeSobj i v).pcnt = s.pcnt := rfl
@[simp] theorem State.writeSobj_tct (i : Fin 64) (v : Long) : (s.writeSobj i v).tct = s.tct := rfl
@[simp] theorem State.writeSobj_topal (i : Fin 64) (v : Long) : (s.writeSobj i v).topal = s.topal := rfl
@[simp] theorem State.writeSobj_tstage (i : Fin 64) (v : Long) : (s.writeSobj i v).tstage = s.tstage := rfl
@[simp] theorem State.writeSobj_toam (i : Fin 64) (v : Long) : (s.writeSobj i v).toam = s.toam := rfl
@[simp] theorem State.writeSobj_mapa (i : Fin 64) (v : Long) : (s.writeSobj i v).mapa = s.mapa := rfl
@[simp] theorem State.writeSobj_mapb (i : Fin 64) (v : Long) : (s.writeSobj i v).mapb = s.mapb := rfl
@[simp] theorem State.writeSobj_frameEngine (i : Fin 64) (v : Long) : (s.writeSobj i v).frameEngine = s.frameEngine := rfl
@[simp] theorem State.writeSobj_pfEngine (i : Fin 64) (v : Long) : (s.writeSobj i v).pfEngine = s.pfEngine := rfl
@[simp] theorem State.writeSobj_cfg (i : Fin 64) (v : Long) : (s.writeSobj i v).cfg = s.cfg := rfl
@[simp] theorem State.writeSobj_inputs (i : Fin 64) (v : Long) : (s.writeSobj i v).inputs = s.inputs := rfl
@[simp] theorem State.writeSobj_pfIssued (i : Fin 64) (v : Long) : (s.writeSobj i v).pfIssued = s.pfIssued := rfl
@[simp] theorem State.writeSobj_tick (i : Fin 64) (v : Long) : (s.writeSobj i v).tick = s.tick := rfl

@[simp] theorem State.writeSotile_spal (k : Fin 256) (b : Block) : (s.writeSotile k b).spal = s.spal := rfl
@[simp] theorem State.writeSotile_sobj (k : Fin 256) (b : Block) : (s.writeSotile k b).sobj = s.sobj := rfl
@[simp] theorem State.writeSotile_sotile (k : Fin 256) (b : Block) : (s.writeSotile k b).sotile = s.sotile.write k b := rfl
@[simp] theorem State.writeSotile_lut (k : Fin 256) (b : Block) : (s.writeSotile k b).lut = s.lut := rfl
@[simp] theorem State.writeSotile_lutv (k : Fin 256) (b : Block) : (s.writeSotile k b).lutv = s.lutv := rfl
@[simp] theorem State.writeSotile_cmap (k : Fin 256) (b : Block) : (s.writeSotile k b).cmap = s.cmap := rfl
@[simp] theorem State.writeSotile_pcnt (k : Fin 256) (b : Block) : (s.writeSotile k b).pcnt = s.pcnt := rfl
@[simp] theorem State.writeSotile_tct (k : Fin 256) (b : Block) : (s.writeSotile k b).tct = s.tct := rfl
@[simp] theorem State.writeSotile_topal (k : Fin 256) (b : Block) : (s.writeSotile k b).topal = s.topal := rfl
@[simp] theorem State.writeSotile_tstage (k : Fin 256) (b : Block) : (s.writeSotile k b).tstage = s.tstage := rfl
@[simp] theorem State.writeSotile_toam (k : Fin 256) (b : Block) : (s.writeSotile k b).toam = s.toam := rfl
@[simp] theorem State.writeSotile_mapa (k : Fin 256) (b : Block) : (s.writeSotile k b).mapa = s.mapa := rfl
@[simp] theorem State.writeSotile_mapb (k : Fin 256) (b : Block) : (s.writeSotile k b).mapb = s.mapb := rfl
@[simp] theorem State.writeSotile_frameEngine (k : Fin 256) (b : Block) : (s.writeSotile k b).frameEngine = s.frameEngine := rfl
@[simp] theorem State.writeSotile_pfEngine (k : Fin 256) (b : Block) : (s.writeSotile k b).pfEngine = s.pfEngine := rfl
@[simp] theorem State.writeSotile_cfg (k : Fin 256) (b : Block) : (s.writeSotile k b).cfg = s.cfg := rfl
@[simp] theorem State.writeSotile_inputs (k : Fin 256) (b : Block) : (s.writeSotile k b).inputs = s.inputs := rfl
@[simp] theorem State.writeSotile_pfIssued (k : Fin 256) (b : Block) : (s.writeSotile k b).pfIssued = s.pfIssued := rfl
@[simp] theorem State.writeSotile_tick (k : Fin 256) (b : Block) : (s.writeSotile k b).tick = s.tick := rfl

@[simp] theorem State.writeLut_spal (b : Fin 256) (v : Word) : (s.writeLut b v).spal = s.spal := rfl
@[simp] theorem State.writeLut_sobj (b : Fin 256) (v : Word) : (s.writeLut b v).sobj = s.sobj := rfl
@[simp] theorem State.writeLut_sotile (b : Fin 256) (v : Word) : (s.writeLut b v).sotile = s.sotile := rfl
@[simp] theorem State.writeLut_lut (b : Fin 256) (v : Word) : (s.writeLut b v).lut = s.lut.write b v := rfl
@[simp] theorem State.writeLut_lutv (b : Fin 256) (v : Word) : (s.writeLut b v).lutv = s.lutv := rfl
@[simp] theorem State.writeLut_cmap (b : Fin 256) (v : Word) : (s.writeLut b v).cmap = s.cmap := rfl
@[simp] theorem State.writeLut_pcnt (b : Fin 256) (v : Word) : (s.writeLut b v).pcnt = s.pcnt := rfl
@[simp] theorem State.writeLut_tct (b : Fin 256) (v : Word) : (s.writeLut b v).tct = s.tct := rfl
@[simp] theorem State.writeLut_topal (b : Fin 256) (v : Word) : (s.writeLut b v).topal = s.topal := rfl
@[simp] theorem State.writeLut_tstage (b : Fin 256) (v : Word) : (s.writeLut b v).tstage = s.tstage := rfl
@[simp] theorem State.writeLut_toam (b : Fin 256) (v : Word) : (s.writeLut b v).toam = s.toam := rfl
@[simp] theorem State.writeLut_mapa (b : Fin 256) (v : Word) : (s.writeLut b v).mapa = s.mapa := rfl
@[simp] theorem State.writeLut_mapb (b : Fin 256) (v : Word) : (s.writeLut b v).mapb = s.mapb := rfl
@[simp] theorem State.writeLut_frameEngine (b : Fin 256) (v : Word) : (s.writeLut b v).frameEngine = s.frameEngine := rfl
@[simp] theorem State.writeLut_pfEngine (b : Fin 256) (v : Word) : (s.writeLut b v).pfEngine = s.pfEngine := rfl
@[simp] theorem State.writeLut_cfg (b : Fin 256) (v : Word) : (s.writeLut b v).cfg = s.cfg := rfl
@[simp] theorem State.writeLut_inputs (b : Fin 256) (v : Word) : (s.writeLut b v).inputs = s.inputs := rfl
@[simp] theorem State.writeLut_pfIssued (b : Fin 256) (v : Word) : (s.writeLut b v).pfIssued = s.pfIssued := rfl
@[simp] theorem State.writeLut_tick (b : Fin 256) (v : Word) : (s.writeLut b v).tick = s.tick := rfl

@[simp] theorem State.writeCmap_spal (p : Fin 32) (d : BitVec 4) : (s.writeCmap p d).spal = s.spal := rfl
@[simp] theorem State.writeCmap_sobj (p : Fin 32) (d : BitVec 4) : (s.writeCmap p d).sobj = s.sobj := rfl
@[simp] theorem State.writeCmap_sotile (p : Fin 32) (d : BitVec 4) : (s.writeCmap p d).sotile = s.sotile := rfl
@[simp] theorem State.writeCmap_lut (p : Fin 32) (d : BitVec 4) : (s.writeCmap p d).lut = s.lut := rfl
@[simp] theorem State.writeCmap_lutv (p : Fin 32) (d : BitVec 4) : (s.writeCmap p d).lutv = s.lutv := rfl
@[simp] theorem State.writeCmap_cmap (p : Fin 32) (d : BitVec 4) : (s.writeCmap p d).cmap = s.cmap.write p d := rfl
@[simp] theorem State.writeCmap_pcnt (p : Fin 32) (d : BitVec 4) : (s.writeCmap p d).pcnt = s.pcnt := rfl
@[simp] theorem State.writeCmap_tct (p : Fin 32) (d : BitVec 4) : (s.writeCmap p d).tct = s.tct := rfl
@[simp] theorem State.writeCmap_topal (p : Fin 32) (d : BitVec 4) : (s.writeCmap p d).topal = s.topal := rfl
@[simp] theorem State.writeCmap_tstage (p : Fin 32) (d : BitVec 4) : (s.writeCmap p d).tstage = s.tstage := rfl
@[simp] theorem State.writeCmap_toam (p : Fin 32) (d : BitVec 4) : (s.writeCmap p d).toam = s.toam := rfl
@[simp] theorem State.writeCmap_mapa (p : Fin 32) (d : BitVec 4) : (s.writeCmap p d).mapa = s.mapa := rfl
@[simp] theorem State.writeCmap_mapb (p : Fin 32) (d : BitVec 4) : (s.writeCmap p d).mapb = s.mapb := rfl
@[simp] theorem State.writeCmap_frameEngine (p : Fin 32) (d : BitVec 4) : (s.writeCmap p d).frameEngine = s.frameEngine := rfl
@[simp] theorem State.writeCmap_pfEngine (p : Fin 32) (d : BitVec 4) : (s.writeCmap p d).pfEngine = s.pfEngine := rfl
@[simp] theorem State.writeCmap_cfg (p : Fin 32) (d : BitVec 4) : (s.writeCmap p d).cfg = s.cfg := rfl
@[simp] theorem State.writeCmap_inputs (p : Fin 32) (d : BitVec 4) : (s.writeCmap p d).inputs = s.inputs := rfl
@[simp] theorem State.writeCmap_pfIssued (p : Fin 32) (d : BitVec 4) : (s.writeCmap p d).pfIssued = s.pfIssued := rfl
@[simp] theorem State.writeCmap_tick (p : Fin 32) (d : BitVec 4) : (s.writeCmap p d).tick = s.tick := rfl

@[simp] theorem State.setPcnt_spal (n : BitVec 4) : (s.setPcnt n).spal = s.spal := rfl
@[simp] theorem State.setPcnt_sobj (n : BitVec 4) : (s.setPcnt n).sobj = s.sobj := rfl
@[simp] theorem State.setPcnt_sotile (n : BitVec 4) : (s.setPcnt n).sotile = s.sotile := rfl
@[simp] theorem State.setPcnt_lut (n : BitVec 4) : (s.setPcnt n).lut = s.lut := rfl
@[simp] theorem State.setPcnt_lutv (n : BitVec 4) : (s.setPcnt n).lutv = s.lutv := rfl
@[simp] theorem State.setPcnt_cmap (n : BitVec 4) : (s.setPcnt n).cmap = s.cmap := rfl
@[simp] theorem State.setPcnt_pcnt (n : BitVec 4) : (s.setPcnt n).pcnt = n := rfl
@[simp] theorem State.setPcnt_tct (n : BitVec 4) : (s.setPcnt n).tct = s.tct := rfl
@[simp] theorem State.setPcnt_topal (n : BitVec 4) : (s.setPcnt n).topal = s.topal := rfl
@[simp] theorem State.setPcnt_tstage (n : BitVec 4) : (s.setPcnt n).tstage = s.tstage := rfl
@[simp] theorem State.setPcnt_toam (n : BitVec 4) : (s.setPcnt n).toam = s.toam := rfl
@[simp] theorem State.setPcnt_mapa (n : BitVec 4) : (s.setPcnt n).mapa = s.mapa := rfl
@[simp] theorem State.setPcnt_mapb (n : BitVec 4) : (s.setPcnt n).mapb = s.mapb := rfl
@[simp] theorem State.setPcnt_frameEngine (n : BitVec 4) : (s.setPcnt n).frameEngine = s.frameEngine := rfl
@[simp] theorem State.setPcnt_pfEngine (n : BitVec 4) : (s.setPcnt n).pfEngine = s.pfEngine := rfl
@[simp] theorem State.setPcnt_cfg (n : BitVec 4) : (s.setPcnt n).cfg = s.cfg := rfl
@[simp] theorem State.setPcnt_inputs (n : BitVec 4) : (s.setPcnt n).inputs = s.inputs := rfl
@[simp] theorem State.setPcnt_pfIssued (n : BitVec 4) : (s.setPcnt n).pfIssued = s.pfIssued := rfl
@[simp] theorem State.setPcnt_tick (n : BitVec 4) : (s.setPcnt n).tick = s.tick := rfl

@[simp] theorem State.writeTct_spal (i : Fin 256) (v : Word) : (s.writeTct i v).spal = s.spal := rfl
@[simp] theorem State.writeTct_sobj (i : Fin 256) (v : Word) : (s.writeTct i v).sobj = s.sobj := rfl
@[simp] theorem State.writeTct_sotile (i : Fin 256) (v : Word) : (s.writeTct i v).sotile = s.sotile := rfl
@[simp] theorem State.writeTct_lut (i : Fin 256) (v : Word) : (s.writeTct i v).lut = s.lut := rfl
@[simp] theorem State.writeTct_lutv (i : Fin 256) (v : Word) : (s.writeTct i v).lutv = s.lutv := rfl
@[simp] theorem State.writeTct_cmap (i : Fin 256) (v : Word) : (s.writeTct i v).cmap = s.cmap := rfl
@[simp] theorem State.writeTct_pcnt (i : Fin 256) (v : Word) : (s.writeTct i v).pcnt = s.pcnt := rfl
@[simp] theorem State.writeTct_tct (i : Fin 256) (v : Word) : (s.writeTct i v).tct = s.tct.write i v := rfl
@[simp] theorem State.writeTct_topal (i : Fin 256) (v : Word) : (s.writeTct i v).topal = s.topal := rfl
@[simp] theorem State.writeTct_tstage (i : Fin 256) (v : Word) : (s.writeTct i v).tstage = s.tstage := rfl
@[simp] theorem State.writeTct_toam (i : Fin 256) (v : Word) : (s.writeTct i v).toam = s.toam := rfl
@[simp] theorem State.writeTct_mapa (i : Fin 256) (v : Word) : (s.writeTct i v).mapa = s.mapa := rfl
@[simp] theorem State.writeTct_mapb (i : Fin 256) (v : Word) : (s.writeTct i v).mapb = s.mapb := rfl
@[simp] theorem State.writeTct_frameEngine (i : Fin 256) (v : Word) : (s.writeTct i v).frameEngine = s.frameEngine := rfl
@[simp] theorem State.writeTct_pfEngine (i : Fin 256) (v : Word) : (s.writeTct i v).pfEngine = s.pfEngine := rfl
@[simp] theorem State.writeTct_cfg (i : Fin 256) (v : Word) : (s.writeTct i v).cfg = s.cfg := rfl
@[simp] theorem State.writeTct_inputs (i : Fin 256) (v : Word) : (s.writeTct i v).inputs = s.inputs := rfl
@[simp] theorem State.writeTct_pfIssued (i : Fin 256) (v : Word) : (s.writeTct i v).pfIssued = s.pfIssued := rfl
@[simp] theorem State.writeTct_tick (i : Fin 256) (v : Word) : (s.writeTct i v).tick = s.tick := rfl

@[simp] theorem State.writeTopal_spal (d i : Fin 16) (v : Word) : (s.writeTopal d i v).spal = s.spal := rfl
@[simp] theorem State.writeTopal_sobj (d i : Fin 16) (v : Word) : (s.writeTopal d i v).sobj = s.sobj := rfl
@[simp] theorem State.writeTopal_sotile (d i : Fin 16) (v : Word) : (s.writeTopal d i v).sotile = s.sotile := rfl
@[simp] theorem State.writeTopal_lut (d i : Fin 16) (v : Word) : (s.writeTopal d i v).lut = s.lut := rfl
@[simp] theorem State.writeTopal_lutv (d i : Fin 16) (v : Word) : (s.writeTopal d i v).lutv = s.lutv := rfl
@[simp] theorem State.writeTopal_cmap (d i : Fin 16) (v : Word) : (s.writeTopal d i v).cmap = s.cmap := rfl
@[simp] theorem State.writeTopal_pcnt (d i : Fin 16) (v : Word) : (s.writeTopal d i v).pcnt = s.pcnt := rfl
@[simp] theorem State.writeTopal_tct (d i : Fin 16) (v : Word) : (s.writeTopal d i v).tct = s.tct := rfl
@[simp] theorem State.writeTopal_topal (d i : Fin 16) (v : Word) : (s.writeTopal d i v).topal = s.topal.write d ((s.topal.read d).write i v) := rfl
@[simp] theorem State.writeTopal_tstage (d i : Fin 16) (v : Word) : (s.writeTopal d i v).tstage = s.tstage := rfl
@[simp] theorem State.writeTopal_toam (d i : Fin 16) (v : Word) : (s.writeTopal d i v).toam = s.toam := rfl
@[simp] theorem State.writeTopal_mapa (d i : Fin 16) (v : Word) : (s.writeTopal d i v).mapa = s.mapa := rfl
@[simp] theorem State.writeTopal_mapb (d i : Fin 16) (v : Word) : (s.writeTopal d i v).mapb = s.mapb := rfl
@[simp] theorem State.writeTopal_frameEngine (d i : Fin 16) (v : Word) : (s.writeTopal d i v).frameEngine = s.frameEngine := rfl
@[simp] theorem State.writeTopal_pfEngine (d i : Fin 16) (v : Word) : (s.writeTopal d i v).pfEngine = s.pfEngine := rfl
@[simp] theorem State.writeTopal_cfg (d i : Fin 16) (v : Word) : (s.writeTopal d i v).cfg = s.cfg := rfl
@[simp] theorem State.writeTopal_inputs (d i : Fin 16) (v : Word) : (s.writeTopal d i v).inputs = s.inputs := rfl
@[simp] theorem State.writeTopal_pfIssued (d i : Fin 16) (v : Word) : (s.writeTopal d i v).pfIssued = s.pfIssued := rfl
@[simp] theorem State.writeTopal_tick (d i : Fin 16) (v : Word) : (s.writeTopal d i v).tick = s.tick := rfl

@[simp] theorem State.writeTstage_spal (t : Fin 48) (b : Block) : (s.writeTstage t b).spal = s.spal := rfl
@[simp] theorem State.writeTstage_sobj (t : Fin 48) (b : Block) : (s.writeTstage t b).sobj = s.sobj := rfl
@[simp] theorem State.writeTstage_sotile (t : Fin 48) (b : Block) : (s.writeTstage t b).sotile = s.sotile := rfl
@[simp] theorem State.writeTstage_lut (t : Fin 48) (b : Block) : (s.writeTstage t b).lut = s.lut := rfl
@[simp] theorem State.writeTstage_lutv (t : Fin 48) (b : Block) : (s.writeTstage t b).lutv = s.lutv := rfl
@[simp] theorem State.writeTstage_cmap (t : Fin 48) (b : Block) : (s.writeTstage t b).cmap = s.cmap := rfl
@[simp] theorem State.writeTstage_pcnt (t : Fin 48) (b : Block) : (s.writeTstage t b).pcnt = s.pcnt := rfl
@[simp] theorem State.writeTstage_tct (t : Fin 48) (b : Block) : (s.writeTstage t b).tct = s.tct := rfl
@[simp] theorem State.writeTstage_topal (t : Fin 48) (b : Block) : (s.writeTstage t b).topal = s.topal := rfl
@[simp] theorem State.writeTstage_tstage (t : Fin 48) (b : Block) : (s.writeTstage t b).tstage = s.tstage.write t b := rfl
@[simp] theorem State.writeTstage_toam (t : Fin 48) (b : Block) : (s.writeTstage t b).toam = s.toam := rfl
@[simp] theorem State.writeTstage_mapa (t : Fin 48) (b : Block) : (s.writeTstage t b).mapa = s.mapa := rfl
@[simp] theorem State.writeTstage_mapb (t : Fin 48) (b : Block) : (s.writeTstage t b).mapb = s.mapb := rfl
@[simp] theorem State.writeTstage_frameEngine (t : Fin 48) (b : Block) : (s.writeTstage t b).frameEngine = s.frameEngine := rfl
@[simp] theorem State.writeTstage_pfEngine (t : Fin 48) (b : Block) : (s.writeTstage t b).pfEngine = s.pfEngine := rfl
@[simp] theorem State.writeTstage_cfg (t : Fin 48) (b : Block) : (s.writeTstage t b).cfg = s.cfg := rfl
@[simp] theorem State.writeTstage_inputs (t : Fin 48) (b : Block) : (s.writeTstage t b).inputs = s.inputs := rfl
@[simp] theorem State.writeTstage_pfIssued (t : Fin 48) (b : Block) : (s.writeTstage t b).pfIssued = s.pfIssued := rfl
@[simp] theorem State.writeTstage_tick (t : Fin 48) (b : Block) : (s.writeTstage t b).tick = s.tick := rfl

@[simp] theorem State.writeToam_spal (t : Fin 48) (e : SpriteEntry) : (s.writeToam t e).spal = s.spal := rfl
@[simp] theorem State.writeToam_sobj (t : Fin 48) (e : SpriteEntry) : (s.writeToam t e).sobj = s.sobj := rfl
@[simp] theorem State.writeToam_sotile (t : Fin 48) (e : SpriteEntry) : (s.writeToam t e).sotile = s.sotile := rfl
@[simp] theorem State.writeToam_lut (t : Fin 48) (e : SpriteEntry) : (s.writeToam t e).lut = s.lut := rfl
@[simp] theorem State.writeToam_lutv (t : Fin 48) (e : SpriteEntry) : (s.writeToam t e).lutv = s.lutv := rfl
@[simp] theorem State.writeToam_cmap (t : Fin 48) (e : SpriteEntry) : (s.writeToam t e).cmap = s.cmap := rfl
@[simp] theorem State.writeToam_pcnt (t : Fin 48) (e : SpriteEntry) : (s.writeToam t e).pcnt = s.pcnt := rfl
@[simp] theorem State.writeToam_tct (t : Fin 48) (e : SpriteEntry) : (s.writeToam t e).tct = s.tct := rfl
@[simp] theorem State.writeToam_topal (t : Fin 48) (e : SpriteEntry) : (s.writeToam t e).topal = s.topal := rfl
@[simp] theorem State.writeToam_tstage (t : Fin 48) (e : SpriteEntry) : (s.writeToam t e).tstage = s.tstage := rfl
@[simp] theorem State.writeToam_toam (t : Fin 48) (e : SpriteEntry) : (s.writeToam t e).toam = s.toam.write t e := rfl
@[simp] theorem State.writeToam_mapa (t : Fin 48) (e : SpriteEntry) : (s.writeToam t e).mapa = s.mapa := rfl
@[simp] theorem State.writeToam_mapb (t : Fin 48) (e : SpriteEntry) : (s.writeToam t e).mapb = s.mapb := rfl
@[simp] theorem State.writeToam_frameEngine (t : Fin 48) (e : SpriteEntry) : (s.writeToam t e).frameEngine = s.frameEngine := rfl
@[simp] theorem State.writeToam_pfEngine (t : Fin 48) (e : SpriteEntry) : (s.writeToam t e).pfEngine = s.pfEngine := rfl
@[simp] theorem State.writeToam_cfg (t : Fin 48) (e : SpriteEntry) : (s.writeToam t e).cfg = s.cfg := rfl
@[simp] theorem State.writeToam_inputs (t : Fin 48) (e : SpriteEntry) : (s.writeToam t e).inputs = s.inputs := rfl
@[simp] theorem State.writeToam_pfIssued (t : Fin 48) (e : SpriteEntry) : (s.writeToam t e).pfIssued = s.pfIssued := rfl
@[simp] theorem State.writeToam_tick (t : Fin 48) (e : SpriteEntry) : (s.writeToam t e).tick = s.tick := rfl

@[simp] theorem State.writeMapa_spal (i : Fin 4096) (v : Word) : (s.writeMapa i v).spal = s.spal := rfl
@[simp] theorem State.writeMapa_sobj (i : Fin 4096) (v : Word) : (s.writeMapa i v).sobj = s.sobj := rfl
@[simp] theorem State.writeMapa_sotile (i : Fin 4096) (v : Word) : (s.writeMapa i v).sotile = s.sotile := rfl
@[simp] theorem State.writeMapa_lut (i : Fin 4096) (v : Word) : (s.writeMapa i v).lut = s.lut := rfl
@[simp] theorem State.writeMapa_lutv (i : Fin 4096) (v : Word) : (s.writeMapa i v).lutv = s.lutv := rfl
@[simp] theorem State.writeMapa_cmap (i : Fin 4096) (v : Word) : (s.writeMapa i v).cmap = s.cmap := rfl
@[simp] theorem State.writeMapa_pcnt (i : Fin 4096) (v : Word) : (s.writeMapa i v).pcnt = s.pcnt := rfl
@[simp] theorem State.writeMapa_tct (i : Fin 4096) (v : Word) : (s.writeMapa i v).tct = s.tct := rfl
@[simp] theorem State.writeMapa_topal (i : Fin 4096) (v : Word) : (s.writeMapa i v).topal = s.topal := rfl
@[simp] theorem State.writeMapa_tstage (i : Fin 4096) (v : Word) : (s.writeMapa i v).tstage = s.tstage := rfl
@[simp] theorem State.writeMapa_toam (i : Fin 4096) (v : Word) : (s.writeMapa i v).toam = s.toam := rfl
@[simp] theorem State.writeMapa_mapa (i : Fin 4096) (v : Word) : (s.writeMapa i v).mapa = s.mapa.write i v := rfl
@[simp] theorem State.writeMapa_mapb (i : Fin 4096) (v : Word) : (s.writeMapa i v).mapb = s.mapb := rfl
@[simp] theorem State.writeMapa_frameEngine (i : Fin 4096) (v : Word) : (s.writeMapa i v).frameEngine = s.frameEngine := rfl
@[simp] theorem State.writeMapa_pfEngine (i : Fin 4096) (v : Word) : (s.writeMapa i v).pfEngine = s.pfEngine := rfl
@[simp] theorem State.writeMapa_cfg (i : Fin 4096) (v : Word) : (s.writeMapa i v).cfg = s.cfg := rfl
@[simp] theorem State.writeMapa_inputs (i : Fin 4096) (v : Word) : (s.writeMapa i v).inputs = s.inputs := rfl
@[simp] theorem State.writeMapa_pfIssued (i : Fin 4096) (v : Word) : (s.writeMapa i v).pfIssued = s.pfIssued := rfl
@[simp] theorem State.writeMapa_tick (i : Fin 4096) (v : Word) : (s.writeMapa i v).tick = s.tick := rfl

@[simp] theorem State.writeMapb_spal (i : Fin 4096) (v : Word) : (s.writeMapb i v).spal = s.spal := rfl
@[simp] theorem State.writeMapb_sobj (i : Fin 4096) (v : Word) : (s.writeMapb i v).sobj = s.sobj := rfl
@[simp] theorem State.writeMapb_sotile (i : Fin 4096) (v : Word) : (s.writeMapb i v).sotile = s.sotile := rfl
@[simp] theorem State.writeMapb_lut (i : Fin 4096) (v : Word) : (s.writeMapb i v).lut = s.lut := rfl
@[simp] theorem State.writeMapb_lutv (i : Fin 4096) (v : Word) : (s.writeMapb i v).lutv = s.lutv := rfl
@[simp] theorem State.writeMapb_cmap (i : Fin 4096) (v : Word) : (s.writeMapb i v).cmap = s.cmap := rfl
@[simp] theorem State.writeMapb_pcnt (i : Fin 4096) (v : Word) : (s.writeMapb i v).pcnt = s.pcnt := rfl
@[simp] theorem State.writeMapb_tct (i : Fin 4096) (v : Word) : (s.writeMapb i v).tct = s.tct := rfl
@[simp] theorem State.writeMapb_topal (i : Fin 4096) (v : Word) : (s.writeMapb i v).topal = s.topal := rfl
@[simp] theorem State.writeMapb_tstage (i : Fin 4096) (v : Word) : (s.writeMapb i v).tstage = s.tstage := rfl
@[simp] theorem State.writeMapb_toam (i : Fin 4096) (v : Word) : (s.writeMapb i v).toam = s.toam := rfl
@[simp] theorem State.writeMapb_mapa (i : Fin 4096) (v : Word) : (s.writeMapb i v).mapa = s.mapa := rfl
@[simp] theorem State.writeMapb_mapb (i : Fin 4096) (v : Word) : (s.writeMapb i v).mapb = s.mapb.write i v := rfl
@[simp] theorem State.writeMapb_frameEngine (i : Fin 4096) (v : Word) : (s.writeMapb i v).frameEngine = s.frameEngine := rfl
@[simp] theorem State.writeMapb_pfEngine (i : Fin 4096) (v : Word) : (s.writeMapb i v).pfEngine = s.pfEngine := rfl
@[simp] theorem State.writeMapb_cfg (i : Fin 4096) (v : Word) : (s.writeMapb i v).cfg = s.cfg := rfl
@[simp] theorem State.writeMapb_inputs (i : Fin 4096) (v : Word) : (s.writeMapb i v).inputs = s.inputs := rfl
@[simp] theorem State.writeMapb_pfIssued (i : Fin 4096) (v : Word) : (s.writeMapb i v).pfIssued = s.pfIssued := rfl
@[simp] theorem State.writeMapb_tick (i : Fin 4096) (v : Word) : (s.writeMapb i v).tick = s.tick := rfl

@[simp] theorem State.setFrameEngine_spal (e : FrameEngine) : (s.setFrameEngine e).spal = s.spal := rfl
@[simp] theorem State.setFrameEngine_sobj (e : FrameEngine) : (s.setFrameEngine e).sobj = s.sobj := rfl
@[simp] theorem State.setFrameEngine_sotile (e : FrameEngine) : (s.setFrameEngine e).sotile = s.sotile := rfl
@[simp] theorem State.setFrameEngine_lut (e : FrameEngine) : (s.setFrameEngine e).lut = s.lut := rfl
@[simp] theorem State.setFrameEngine_lutv (e : FrameEngine) : (s.setFrameEngine e).lutv = s.lutv := rfl
@[simp] theorem State.setFrameEngine_cmap (e : FrameEngine) : (s.setFrameEngine e).cmap = s.cmap := rfl
@[simp] theorem State.setFrameEngine_pcnt (e : FrameEngine) : (s.setFrameEngine e).pcnt = s.pcnt := rfl
@[simp] theorem State.setFrameEngine_tct (e : FrameEngine) : (s.setFrameEngine e).tct = s.tct := rfl
@[simp] theorem State.setFrameEngine_topal (e : FrameEngine) : (s.setFrameEngine e).topal = s.topal := rfl
@[simp] theorem State.setFrameEngine_tstage (e : FrameEngine) : (s.setFrameEngine e).tstage = s.tstage := rfl
@[simp] theorem State.setFrameEngine_toam (e : FrameEngine) : (s.setFrameEngine e).toam = s.toam := rfl
@[simp] theorem State.setFrameEngine_mapa (e : FrameEngine) : (s.setFrameEngine e).mapa = s.mapa := rfl
@[simp] theorem State.setFrameEngine_mapb (e : FrameEngine) : (s.setFrameEngine e).mapb = s.mapb := rfl
@[simp] theorem State.setFrameEngine_frameEngine (e : FrameEngine) : (s.setFrameEngine e).frameEngine = e := rfl
@[simp] theorem State.setFrameEngine_pfEngine (e : FrameEngine) : (s.setFrameEngine e).pfEngine = s.pfEngine := rfl
@[simp] theorem State.setFrameEngine_cfg (e : FrameEngine) : (s.setFrameEngine e).cfg = s.cfg := rfl
@[simp] theorem State.setFrameEngine_inputs (e : FrameEngine) : (s.setFrameEngine e).inputs = s.inputs := rfl
@[simp] theorem State.setFrameEngine_pfIssued (e : FrameEngine) : (s.setFrameEngine e).pfIssued = s.pfIssued := rfl
@[simp] theorem State.setFrameEngine_tick (e : FrameEngine) : (s.setFrameEngine e).tick = s.tick := rfl

@[simp] theorem State.setPfEngine_spal (e : PfEngine) : (s.setPfEngine e).spal = s.spal := rfl
@[simp] theorem State.setPfEngine_sobj (e : PfEngine) : (s.setPfEngine e).sobj = s.sobj := rfl
@[simp] theorem State.setPfEngine_sotile (e : PfEngine) : (s.setPfEngine e).sotile = s.sotile := rfl
@[simp] theorem State.setPfEngine_lut (e : PfEngine) : (s.setPfEngine e).lut = s.lut := rfl
@[simp] theorem State.setPfEngine_lutv (e : PfEngine) : (s.setPfEngine e).lutv = s.lutv := rfl
@[simp] theorem State.setPfEngine_cmap (e : PfEngine) : (s.setPfEngine e).cmap = s.cmap := rfl
@[simp] theorem State.setPfEngine_pcnt (e : PfEngine) : (s.setPfEngine e).pcnt = s.pcnt := rfl
@[simp] theorem State.setPfEngine_tct (e : PfEngine) : (s.setPfEngine e).tct = s.tct := rfl
@[simp] theorem State.setPfEngine_topal (e : PfEngine) : (s.setPfEngine e).topal = s.topal := rfl
@[simp] theorem State.setPfEngine_tstage (e : PfEngine) : (s.setPfEngine e).tstage = s.tstage := rfl
@[simp] theorem State.setPfEngine_toam (e : PfEngine) : (s.setPfEngine e).toam = s.toam := rfl
@[simp] theorem State.setPfEngine_mapa (e : PfEngine) : (s.setPfEngine e).mapa = s.mapa := rfl
@[simp] theorem State.setPfEngine_mapb (e : PfEngine) : (s.setPfEngine e).mapb = s.mapb := rfl
@[simp] theorem State.setPfEngine_frameEngine (e : PfEngine) : (s.setPfEngine e).frameEngine = s.frameEngine := rfl
@[simp] theorem State.setPfEngine_pfEngine (e : PfEngine) : (s.setPfEngine e).pfEngine = e := rfl
@[simp] theorem State.setPfEngine_cfg (e : PfEngine) : (s.setPfEngine e).cfg = s.cfg := rfl
@[simp] theorem State.setPfEngine_inputs (e : PfEngine) : (s.setPfEngine e).inputs = s.inputs := rfl
@[simp] theorem State.setPfEngine_pfIssued (e : PfEngine) : (s.setPfEngine e).pfIssued = s.pfIssued := rfl
@[simp] theorem State.setPfEngine_tick (e : PfEngine) : (s.setPfEngine e).tick = s.tick := rfl

@[simp] theorem State.setInputs_spal (ms : List HostMove) : (s.setInputs ms).spal = s.spal := rfl
@[simp] theorem State.setInputs_sobj (ms : List HostMove) : (s.setInputs ms).sobj = s.sobj := rfl
@[simp] theorem State.setInputs_sotile (ms : List HostMove) : (s.setInputs ms).sotile = s.sotile := rfl
@[simp] theorem State.setInputs_lut (ms : List HostMove) : (s.setInputs ms).lut = s.lut := rfl
@[simp] theorem State.setInputs_lutv (ms : List HostMove) : (s.setInputs ms).lutv = s.lutv := rfl
@[simp] theorem State.setInputs_cmap (ms : List HostMove) : (s.setInputs ms).cmap = s.cmap := rfl
@[simp] theorem State.setInputs_pcnt (ms : List HostMove) : (s.setInputs ms).pcnt = s.pcnt := rfl
@[simp] theorem State.setInputs_tct (ms : List HostMove) : (s.setInputs ms).tct = s.tct := rfl
@[simp] theorem State.setInputs_topal (ms : List HostMove) : (s.setInputs ms).topal = s.topal := rfl
@[simp] theorem State.setInputs_tstage (ms : List HostMove) : (s.setInputs ms).tstage = s.tstage := rfl
@[simp] theorem State.setInputs_toam (ms : List HostMove) : (s.setInputs ms).toam = s.toam := rfl
@[simp] theorem State.setInputs_mapa (ms : List HostMove) : (s.setInputs ms).mapa = s.mapa := rfl
@[simp] theorem State.setInputs_mapb (ms : List HostMove) : (s.setInputs ms).mapb = s.mapb := rfl
@[simp] theorem State.setInputs_frameEngine (ms : List HostMove) : (s.setInputs ms).frameEngine = s.frameEngine := rfl
@[simp] theorem State.setInputs_pfEngine (ms : List HostMove) : (s.setInputs ms).pfEngine = s.pfEngine := rfl
@[simp] theorem State.setInputs_cfg (ms : List HostMove) : (s.setInputs ms).cfg = s.cfg := rfl
@[simp] theorem State.setInputs_inputs (ms : List HostMove) : (s.setInputs ms).inputs = ms := rfl
@[simp] theorem State.setInputs_pfIssued (ms : List HostMove) : (s.setInputs ms).pfIssued = s.pfIssued := rfl
@[simp] theorem State.setInputs_tick (ms : List HostMove) : (s.setInputs ms).tick = s.tick := rfl

@[simp] theorem State.setPfIssued_spal : (s.setPfIssued).spal = s.spal := rfl
@[simp] theorem State.setPfIssued_sobj : (s.setPfIssued).sobj = s.sobj := rfl
@[simp] theorem State.setPfIssued_sotile : (s.setPfIssued).sotile = s.sotile := rfl
@[simp] theorem State.setPfIssued_lut : (s.setPfIssued).lut = s.lut := rfl
@[simp] theorem State.setPfIssued_lutv : (s.setPfIssued).lutv = s.lutv := rfl
@[simp] theorem State.setPfIssued_cmap : (s.setPfIssued).cmap = s.cmap := rfl
@[simp] theorem State.setPfIssued_pcnt : (s.setPfIssued).pcnt = s.pcnt := rfl
@[simp] theorem State.setPfIssued_tct : (s.setPfIssued).tct = s.tct := rfl
@[simp] theorem State.setPfIssued_topal : (s.setPfIssued).topal = s.topal := rfl
@[simp] theorem State.setPfIssued_tstage : (s.setPfIssued).tstage = s.tstage := rfl
@[simp] theorem State.setPfIssued_toam : (s.setPfIssued).toam = s.toam := rfl
@[simp] theorem State.setPfIssued_mapa : (s.setPfIssued).mapa = s.mapa := rfl
@[simp] theorem State.setPfIssued_mapb : (s.setPfIssued).mapb = s.mapb := rfl
@[simp] theorem State.setPfIssued_frameEngine : (s.setPfIssued).frameEngine = s.frameEngine := rfl
@[simp] theorem State.setPfIssued_pfEngine : (s.setPfIssued).pfEngine = s.pfEngine := rfl
@[simp] theorem State.setPfIssued_cfg : (s.setPfIssued).cfg = s.cfg := rfl
@[simp] theorem State.setPfIssued_inputs : (s.setPfIssued).inputs = s.inputs := rfl
@[simp] theorem State.setPfIssued_pfIssued : (s.setPfIssued).pfIssued = true := rfl
@[simp] theorem State.setPfIssued_tick : (s.setPfIssued).tick = s.tick := rfl

@[simp] theorem State.setLutv_spal : (s.setLutv).spal = s.spal := rfl
@[simp] theorem State.setLutv_sobj : (s.setLutv).sobj = s.sobj := rfl
@[simp] theorem State.setLutv_sotile : (s.setLutv).sotile = s.sotile := rfl
@[simp] theorem State.setLutv_lut : (s.setLutv).lut = s.lut := rfl
@[simp] theorem State.setLutv_lutv : (s.setLutv).lutv = true := rfl
@[simp] theorem State.setLutv_cmap : (s.setLutv).cmap = s.cmap := rfl
@[simp] theorem State.setLutv_pcnt : (s.setLutv).pcnt = s.pcnt := rfl
@[simp] theorem State.setLutv_tct : (s.setLutv).tct = s.tct := rfl
@[simp] theorem State.setLutv_topal : (s.setLutv).topal = s.topal := rfl
@[simp] theorem State.setLutv_tstage : (s.setLutv).tstage = s.tstage := rfl
@[simp] theorem State.setLutv_toam : (s.setLutv).toam = s.toam := rfl
@[simp] theorem State.setLutv_mapa : (s.setLutv).mapa = s.mapa := rfl
@[simp] theorem State.setLutv_mapb : (s.setLutv).mapb = s.mapb := rfl
@[simp] theorem State.setLutv_frameEngine : (s.setLutv).frameEngine = s.frameEngine := rfl
@[simp] theorem State.setLutv_pfEngine : (s.setLutv).pfEngine = s.pfEngine := rfl
@[simp] theorem State.setLutv_cfg : (s.setLutv).cfg = s.cfg := rfl
@[simp] theorem State.setLutv_inputs : (s.setLutv).inputs = s.inputs := rfl
@[simp] theorem State.setLutv_pfIssued : (s.setLutv).pfIssued = s.pfIssued := rfl
@[simp] theorem State.setLutv_tick : (s.setLutv).tick = s.tick := rfl

@[simp] theorem State.nextTick_spal : (s.nextTick).spal = s.spal := rfl
@[simp] theorem State.nextTick_sobj : (s.nextTick).sobj = s.sobj := rfl
@[simp] theorem State.nextTick_sotile : (s.nextTick).sotile = s.sotile := rfl
@[simp] theorem State.nextTick_lut : (s.nextTick).lut = s.lut := rfl
@[simp] theorem State.nextTick_lutv : (s.nextTick).lutv = s.lutv := rfl
@[simp] theorem State.nextTick_cmap : (s.nextTick).cmap = s.cmap := rfl
@[simp] theorem State.nextTick_pcnt : (s.nextTick).pcnt = s.pcnt := rfl
@[simp] theorem State.nextTick_tct : (s.nextTick).tct = s.tct := rfl
@[simp] theorem State.nextTick_topal : (s.nextTick).topal = s.topal := rfl
@[simp] theorem State.nextTick_tstage : (s.nextTick).tstage = s.tstage := rfl
@[simp] theorem State.nextTick_toam : (s.nextTick).toam = s.toam := rfl
@[simp] theorem State.nextTick_mapa : (s.nextTick).mapa = s.mapa := rfl
@[simp] theorem State.nextTick_mapb : (s.nextTick).mapb = s.mapb := rfl
@[simp] theorem State.nextTick_frameEngine : (s.nextTick).frameEngine = s.frameEngine := rfl
@[simp] theorem State.nextTick_pfEngine : (s.nextTick).pfEngine = s.pfEngine := rfl
@[simp] theorem State.nextTick_cfg : (s.nextTick).cfg = s.cfg := rfl
@[simp] theorem State.nextTick_inputs : (s.nextTick).inputs = s.inputs := rfl
@[simp] theorem State.nextTick_pfIssued : (s.nextTick).pfIssued = s.pfIssued := rfl
@[simp] theorem State.nextTick_tick : (s.nextTick).tick = s.tick + 1 := rfl

end Sys2Proof.Machine
end

