-- ==== Sys2Proof/Laws/Table.lean ====
section
/-! SUPPORT. Read after write, and the table made by a function (20_memory.md rules R50, R51). -/

namespace Sys2Proof.Machine

variable {α : Type} {n : Nat}

@[simp] theorem Table.read_tabulate (f : Fin n → α) (i : Fin n) : (Table.tabulate f).read i = f i := by
  simp [Table.tabulate, Table.read]

@[simp] theorem Table.read_write_self (t : Table α n) (i : Fin n) (v : α) : (t.write i v).read i = v := by
  simp [Table.read, Table.write]

theorem Table.read_write_ne (t : Table α n) {i j : Fin n} (v : α) (h : i ≠ j) : (t.write i v).read j = t.read j := by
  have : i.val ≠ j.val := fun e => h (Fin.ext e)
  simp [Table.read, Table.write, Vector.getElem_set_ne, this]

theorem Table.read_write (t : Table α n) (i j : Fin n) (v : α) :
    (t.write i v).read j = if i = j then v else t.read j := by
  by_cases h : i = j
  · subst h; simp
  · simp [h, Table.read_write_ne t v h]

theorem Table.ext_read {t u : Table α n} (h : ∀ i, t.read i = u.read i) : t = u :=
  Vector.ext fun i hi => h ⟨i, hi⟩

@[simp] theorem Table.write_write (t : Table α n) (i : Fin n) (v w : α) : (t.write i v).write i w = t.write i w := by
  apply Table.ext_read
  intro j
  simp only [Table.read_write]
  split <;> rfl

theorem Table.write_comm (t : Table α n) {i j : Fin n} (v w : α) (h : i ≠ j) :
    (t.write i v).write j w = (t.write j w).write i v := by
  apply Table.ext_read
  intro k
  simp only [Table.read_write]
  by_cases hi : i = k
  · subst hi; simp [Ne.symm h]
  · simp [hi]

@[simp] theorem Table.write_read (t : Table α n) (i : Fin n) : t.write i (t.read i) = t := by
  apply Table.ext_read
  intro j
  rw [Table.read_write]
  split
  · next h => rw [h]
  · rfl

theorem Table.mem_toList_iff (t : Table α n) (v : α) : v ∈ t.toList ↔ ∃ i, t.read i = v := by
  rw [Vector.mem_toList_iff, Vector.mem_iff_getElem]
  constructor
  · rintro ⟨i, hi, h⟩; exact ⟨⟨i, hi⟩, h⟩
  · rintro ⟨i, h⟩; exact ⟨i.val, i.isLt, h⟩

end Sys2Proof.Machine
end

