-- ==== Sys2Proof/Laws/Inputs.lean ====
section
/-! SUPPORT. What an operation in progress reads when the host has overwritten inputs, and that it reads the tables as they
stand when the host has not (20_memory.md rule R62). -/

namespace Sys2Proof.Machine

/-! ## The host's write -/

/-- One more value is remembered by an operation that reads the input tables. -/
theorem overwritten_note {s : State} (h : s.readsInputs = true) (o : Overwritten) :
    (s.frameEngine.note o).overwritten = o :: s.frameEngine.overwritten := by
  simp only [State.readsInputs] at h
  cases hf : s.frameEngine <;> simp_all [FrameEngine.note, FrameEngine.overwritten]

/-- Remembering changes the frame engine's progress and the counter of free values only. -/
theorem noteOverwritten_frame (s : State) (o : Overwritten) :
    s.noteOverwritten o =
      { s with frameEngine := (s.noteOverwritten o).frameEngine, tick := (s.noteOverwritten o).tick } := by
  simp only [State.noteOverwritten]
  split <;> rfl

@[simp] theorem noteOverwritten_cfg (s : State) (o : Overwritten) : (s.noteOverwritten o).cfg = s.cfg := by
  rw [noteOverwritten_frame]

theorem noteOverwritten_idle {s : State} (h : s.readsInputs = false) (o : Overwritten) : s.noteOverwritten o = s := by
  simp [State.noteOverwritten, h]

theorem noteOverwritten_reading {s : State} (h : s.readsInputs = true) (o : Overwritten) :
    s.noteOverwritten o = (s.setFrameEngine (s.frameEngine.note o)).nextTick := by
  simp [State.noteOverwritten, h]

/-! ## The operation's reads -/

/-- What is picked is the present value or an earlier one. -/
theorem pick_mem {α : Type} (c : Nat) (now : α) (before : List α) : pick c now before = now ∨ pick c now before ∈ before := by
  have h : c % (before.length + 1) < (now :: before).length := by
    simpa using Nat.mod_lt _ (Nat.succ_pos _)
  rw [pick, List.getD_eq_getElem _ _ h]
  exact List.mem_cons.mp (List.getElem_mem h)

@[simp] theorem pick_nil {α : Type} (c : Nat) (now : α) : pick c now [] = now := by simp [pick, Nat.mod_one]

theorem mem_spalBefore {i : Fin 256} {v : Byte} {old : List Overwritten} :
    v ∈ spalBefore i old ↔ Overwritten.spal i v ∈ old := by
  induction old with
  | nil => simp [spalBefore]
  | cons o old ih =>
    cases o with
    | spal j w => by_cases h : j = i <;> simp [spalBefore, h, ih, Ne.symm, eq_comm (a := i)]
    | sobj j w => simp [spalBefore, ih]
    | sotile j b => simp [spalBefore, ih]

theorem mem_sobjBefore {k : Fin 64} {v : Long} {old : List Overwritten} :
    v ∈ sobjBefore k old ↔ Overwritten.sobj k v ∈ old := by
  induction old with
  | nil => simp [sobjBefore]
  | cons o old ih =>
    cases o with
    | spal j w => simp [sobjBefore, ih]
    | sobj j w => by_cases h : j = k <;> simp [sobjBefore, h, ih, Ne.symm, eq_comm (a := k)]
    | sotile j b => simp [sobjBefore, ih]

theorem mem_sotileBefore {k : Fin 256} {b : Block} {old : List Overwritten} :
    b ∈ sotileBefore k old ↔ Overwritten.sotile k b ∈ old := by
  induction old with
  | nil => simp [sotileBefore]
  | cons o old ih =>
    cases o with
    | spal j w => simp [sotileBefore, ih]
    | sobj j w => simp [sotileBefore, ih]
    | sotile j c => by_cases h : j = k <;> simp [sotileBefore, h, ih, Ne.symm, eq_comm (a := k)]

/-- Each element is read as it stands or as it stood (rule R62). -/
theorem seenFor_spal (s : State) (reader : Site) (old : List Overwritten) (i : Fin 256) :
    (s.seenFor reader old).spal.read i = s.spal.read i ∨ .spal i ((s.seenFor reader old).spal.read i) ∈ old := by
  simp only [State.seenFor, Table.read_tabulate, ← mem_spalBefore]
  exact pick_mem _ _ _

theorem seenFor_sobj (s : State) (reader : Site) (old : List Overwritten) (k : Fin 64) :
    (s.seenFor reader old).sobj.read k = s.sobj.read k ∨ .sobj k ((s.seenFor reader old).sobj.read k) ∈ old := by
  simp only [State.seenFor, Table.read_tabulate, ← mem_sobjBefore]
  exact pick_mem _ _ _

theorem seenFor_sotile (s : State) (reader : Site) (old : List Overwritten) (k : Fin 256) :
    (s.seenFor reader old).sotile.read k = s.sotile.read k ∨
      .sotile k ((s.seenFor reader old).sotile.read k) ∈ old := by
  simp only [State.seenFor, Table.read_tabulate, ← mem_sotileBefore]
  exact pick_mem _ _ _

/-- With nothing overwritten the tables are read as they stand. -/
@[simp] theorem seenFor_nil (s : State) (reader : Site) : s.seenFor reader [] = s := by
  have h1 : (s.seenFor reader []).spal = s.spal := Table.ext_read fun i => by simp [State.seenFor, spalBefore]
  have h2 : (s.seenFor reader []).sobj = s.sobj := Table.ext_read fun k => by simp [State.seenFor, sobjBefore]
  have h3 : (s.seenFor reader []).sotile = s.sotile := Table.ext_read fun k => by simp [State.seenFor, sotileBefore]
  calc s.seenFor reader [] = { s with
        spal := (s.seenFor reader []).spal
        sobj := (s.seenFor reader []).sobj
        sotile := (s.seenFor reader []).sotile } := rfl
    _ = s := by rw [h1, h2, h3]

/-- A turn that leaves the input tables alone, with nothing overwritten. -/
theorem readingInputs_nil {turn : State → State} {s : State} (h1 : (turn s).spal = s.spal) (h2 : (turn s).sobj = s.sobj)
    (h3 : (turn s).sotile = s.sotile) (reader : Site) : readingInputs reader [] turn s = turn s := by
  simp only [readingInputs, seenFor_nil, State.withInputsOf, ← h1, ← h2, ← h3]

end Sys2Proof.Machine
end

