-- ==== Sys2Proof/Laws/Memory.lean ====
section
/-! SUPPORT. Every operation over the tables keeps the form of the memory (30_encoding.md rule R95), and reset has it. -/

namespace Sys2Proof.Machine

/-- What the form says: every block has `BLOCK_WORDS` words, overwritten ones still to be read among them. -/
theorem memory_wf_iff (s : State) : Memory.wf s = true ↔
    (∀ k, (s.sotile.read k).length = s.cfg.blockWords) ∧ (∀ t, (s.tstage.read t).length = s.cfg.blockWords) ∧
    (∀ k b, .sotile k b ∈ s.frameEngine.overwritten → b.length = s.cfg.blockWords) := by
  have old : (∀ o ∈ s.frameEngine.overwritten, o.ok s.cfg = true) ↔
      ∀ k b, .sotile k b ∈ s.frameEngine.overwritten → b.length = s.cfg.blockWords := by
    constructor
    · intro h k b hb
      simpa [Overwritten.ok, Cfg.blockOk] using h _ hb
    · intro h o ho
      cases o with
      | spal i v => rfl
      | sobj k v => rfl
      | sotile k b => simpa [Overwritten.ok, Cfg.blockOk] using h k b ho
  simp only [Memory.wf, Bool.and_eq_true, List.all_eq_true, old]
  simp only [Cfg.blockOk, decide_eq_true_eq, Table.mem_toList_iff]
  constructor
  · rintro ⟨⟨h1, h2⟩, h3⟩; exact ⟨fun k => h1 _ ⟨k, rfl⟩, fun t => h2 _ ⟨t, rfl⟩, h3⟩
  · rintro ⟨h1, h2, h3⟩
    exact ⟨⟨by rintro _ ⟨k, rfl⟩; exact h1 k, by rintro _ ⟨t, rfl⟩; exact h2 t⟩, h3⟩

/-- Only the blocks and their length matter. -/
theorem memory_wf_congr {s t : State} (h1 : t.sotile = s.sotile) (h2 : t.tstage = s.tstage) (h3 : t.cfg = s.cfg)
    (h4 : t.frameEngine.overwritten = s.frameEngine.overwritten) : Memory.wf t = Memory.wf s := by
  simp only [Memory.wf, h1, h2, h3, h4]

@[simp] theorem writeSpal_wf (s : State) (i : Fin 256) (v : Byte) : Memory.wf (s.writeSpal i v) = Memory.wf s := rfl

@[simp] theorem writeSobj_wf (s : State) (i : Fin 64) (v : Long) : Memory.wf (s.writeSobj i v) = Memory.wf s := rfl

theorem writeSotile_wf {s : State} (h : Memory.wf s = true) (k : Fin 256) {b : Block} (hb : s.cfg.blockOk b = true) :
    Memory.wf (s.writeSotile k b) = true := by
  rw [memory_wf_iff] at h ⊢
  refine ⟨fun j => ?_, h.2⟩
  simp only [State.writeSotile_sotile, State.writeSotile_cfg, Table.read_write]
  split
  · simpa [Cfg.blockOk] using hb
  · exact h.1 j

@[simp] theorem writeLut_wf (s : State) (b : Fin 256) (v : Word) : Memory.wf (s.writeLut b v) = Memory.wf s := rfl

@[simp] theorem writeCmap_wf (s : State) (p : Fin 32) (d : BitVec 4) : Memory.wf (s.writeCmap p d) = Memory.wf s := rfl

@[simp] theorem writeTct_wf (s : State) (i : Fin 256) (v : Word) : Memory.wf (s.writeTct i v) = Memory.wf s := rfl

@[simp] theorem writeTopal_wf (s : State) (d i : Fin 16) (v : Word) : Memory.wf (s.writeTopal d i v) = Memory.wf s := rfl

theorem writeTstage_wf {s : State} (h : Memory.wf s = true) (t : Fin 48) {b : Block} (hb : s.cfg.blockOk b = true) :
    Memory.wf (s.writeTstage t b) = true := by
  rw [memory_wf_iff] at h ⊢
  refine ⟨h.1, fun j => ?_, h.2.2⟩
  simp only [State.writeTstage_tstage, State.writeTstage_cfg, Table.read_write]
  split
  · simpa [Cfg.blockOk] using hb
  · exact h.2.1 j

@[simp] theorem writeToam_wf (s : State) (t : Fin 48) (e : SpriteEntry) : Memory.wf (s.writeToam t e) = Memory.wf s := rfl

@[simp] theorem writeMapa_wf (s : State) (i : Fin 4096) (v : Word) : Memory.wf (s.writeMapa i v) = Memory.wf s := rfl

@[simp] theorem writeMapb_wf (s : State) (i : Fin 4096) (v : Word) : Memory.wf (s.writeMapb i v) = Memory.wf s := rfl

@[simp] theorem clearMaps_wf (s : State) : Memory.wf (clearMaps s) = Memory.wf s := by
  simp only [clearMaps, Memory.wf]

/-- Clearing the maps writes every element of both and leaves every other field alone (70_reset_and_hazards.md rule R252). -/
@[simp] theorem clearMaps_maps (s : State) (d : Fin 4096) :
    (clearMaps s).mapa.read d = s.cfg.mapaClear ∧ (clearMaps s).mapb.read d = s.cfg.mapbClear := by
  simp [clearMaps]

@[simp] theorem clearMaps_same (s : State) :
    (clearMaps s).spal = s.spal ∧ (clearMaps s).sobj = s.sobj ∧ (clearMaps s).sotile = s.sotile ∧
    (clearMaps s).lut = s.lut ∧ (clearMaps s).lutv = s.lutv ∧ (clearMaps s).cmap = s.cmap ∧
    (clearMaps s).pcnt = s.pcnt ∧ (clearMaps s).tct = s.tct ∧ (clearMaps s).topal = s.topal ∧
    (clearMaps s).tstage = s.tstage ∧ (clearMaps s).toam = s.toam ∧
    (clearMaps s).frameEngine = s.frameEngine ∧ (clearMaps s).pfEngine = s.pfEngine ∧ (clearMaps s).cfg = s.cfg ∧
    (clearMaps s).inputs = s.inputs ∧ (clearMaps s).pfIssued = s.pfIssued ∧ (clearMaps s).tick = s.tick := by
  simp only [clearMaps, and_self]

/-- A block staged from `SOTILE` is a block. -/
theorem stageTile_wf {s : State} (h : Memory.wf s = true) (t : Fin 48) (e : Long) : Memory.wf (stageTile t e s) = true :=
  writeTstage_wf h t (by simpa [Cfg.blockOk] using ((memory_wf_iff s).mp h).1 _)

/-- Remembering an overwritten block. -/
theorem noteOverwritten_wf {s : State} (h : Memory.wf s = true) {o : Overwritten} (ho : o.ok s.cfg = true) :
    Memory.wf (s.noteOverwritten o) = true := by
  have : ∀ e : FrameEngine, (∀ p ∈ e.overwritten, p.ok s.cfg = true) →
      ∀ p ∈ (e.note o).overwritten, p.ok s.cfg = true := by
    intro e he p hp
    cases e <;> simp only [FrameEngine.note, FrameEngine.overwritten, List.mem_cons, List.not_mem_nil] at hp he <;>
      rcases hp with rfl | hp <;> first | exact ho | exact he p hp
  simp only [State.noteOverwritten]
  split
  · simp only [Memory.wf, Bool.and_eq_true, List.all_eq_true] at h ⊢
    exact ⟨h.1, this _ h.2⟩
  · exact h

/-- The host's writes. -/
theorem hostWriteSpal_wf {s : State} (h : Memory.wf s = true) (i : Fin 256) (v : Byte) :
    Memory.wf (s.hostWriteSpal i v) = true :=
  noteOverwritten_wf h rfl

theorem hostWriteSobj_wf {s : State} (h : Memory.wf s = true) (k : Fin 64) (v : Long) :
    Memory.wf (s.hostWriteSobj k v) = true :=
  noteOverwritten_wf h rfl

theorem hostWriteSotile_wf {s : State} (h : Memory.wf s = true) (k : Fin 256) {b : Block} (hb : s.cfg.blockOk b = true) :
    Memory.wf (s.hostWriteSotile k b) = true := by
  refine writeSotile_wf (noteOverwritten_wf h ?_) k (by rw [noteOverwritten_cfg]; exact hb)
  simpa [Overwritten.ok, Cfg.blockOk] using ((memory_wf_iff s).mp h).1 k

/-- The reset event leaves blocks of unspecified words, of the right length. -/
theorem afterReset_wf (c : Cfg) (n : Nat) (moves : List HostMove) : Memory.wf (State.afterReset c n moves) = true := by
  rw [memory_wf_iff]
  refine ⟨?_, ?_, ?_⟩ <;> intro k <;> simp [State.afterReset, freeBlock, FrameEngine.overwritten]

/-- Reset memory is well formed. -/
theorem reset_wf : Memory.wf State.reset = true := afterReset_wf _ _ _

/-- The configuration after reset is inside the ranges of 00_scope.md rule R9. -/
theorem clamp_valid (c : Cfg) : c.clamp.valid = true := by
  simp only [Cfg.clamp, Cfg.valid, Bool.and_eq_true]
  refine ⟨⟨decide_eq_true ?_, decide_eq_true ?_⟩, decide_eq_true ?_⟩
  · split
    · assumption
    · exact BitVec.le_refl _
  · exact Nat.le_max_left _ _
  · split
    · assumption
    · decide

/-- A configuration inside the ranges is admitted as it is. -/
theorem clamp_of_valid {c : Cfg} (h : c.valid = true) : c.clamp = c := by
  simp only [Cfg.valid, Bool.and_eq_true, decide_eq_true_eq] at h
  obtain ⟨⟨h1, h2⟩, h3⟩ := h
  simp [Cfg.clamp, h1, h2, h3]

end Sys2Proof.Machine
end

