-- ==== Sys2Proof/Laws/Object.lean ====
section
/-! SUPPORT. What OBJCONV's parts can do (spec/42_object.md): publication, palette resolution, one slot, the scan. -/

namespace Sys2Proof.Machine

/-! ## Publication (rule R149) -/

/-- Publication changes TOPAL only. -/
theorem publish_frame (p : BitVec 5) (d : BitVec 4) (s : State) :
    publish p d s = { s with topal := (publish p d s).topal } := rfl

/-- What TOPAL holds after a publication. -/
theorem publish_read (p : BitVec 5) (d : BitVec 4) (s : State) (e i : Fin 16) :
    ((publish p d s).topal.read e).read i =
      if h : d.toFin = e ∧ i.val < 4 then
        s.colourWord (s.spal.read (palColourIndex p ⟨i.val, h.2⟩)) (.topal d.toNat i.val)
      else (s.topal.read e).read i := by
  by_cases hd : d.toFin = e
  · subst hd
    fin_cases i <;> simp [publish, publishColour, State.writeTopal, State.colourWord, Table.read_write]
  · simp [publish, publishColour, State.writeTopal, Table.read_write, hd]

/-! ## Palette resolution (rule R147) -/

/-- The three branches of rule R147. -/
theorem resolvePalette_cases (p : BitVec 5) (s : State) :
    (s.cmap.read p.toFin ≠ 0#4 ∧ resolvePalette p s = (s.cmap.read p.toFin, s)) ∨
    (s.cmap.read p.toFin = 0#4 ∧ s.pcnt < 15#4 ∧ resolvePalette p s =
      (s.pcnt + 1#4,
        { s with
          pcnt := s.pcnt + 1#4
          cmap := s.cmap.write p.toFin (s.pcnt + 1#4)
          topal := (publish p (s.pcnt + 1#4) (s.setPcnt (s.pcnt + 1#4))).topal })) ∨
    (s.cmap.read p.toFin = 0#4 ∧ s.pcnt = 15#4 ∧ resolvePalette p s = (0#4, s)) := by
  by_cases h : s.cmap.read p.toFin = 0#4
  · by_cases hc : s.pcnt < 15#4
    · exact .inr (.inl ⟨h, hc, by simp only [resolvePalette, h, hc, ne_eq, not_true, if_false, if_true]; rfl⟩)
    · refine .inr (.inr ⟨h, ?_, by simp [resolvePalette, h, hc]⟩)
      bv_omega
  · exact .inl ⟨h, by simp [resolvePalette, h]⟩

/-- Resolution changes CMAP, PCNT and TOPAL only. -/
theorem resolvePalette_frame (p : BitVec 5) (s : State) :
    (resolvePalette p s).2 =
      { s with
        cmap := (resolvePalette p s).2.cmap
        pcnt := (resolvePalette p s).2.pcnt
        topal := (resolvePalette p s).2.topal } := by
  rcases resolvePalette_cases p s with ⟨-, h⟩ | ⟨-, -, h⟩ | ⟨-, -, h⟩ <;> rw [h]

/-! ## One slot (rule R154) -/

/-- A slot that is dead. -/
theorem objSlot_dead (s : State) (t : Fin 48) (h : liveSlot s t = false) : objSlot s t = s.writeToam t .off := by
  simp only [liveSlot] at h
  simp [objSlot, h]

/-- A slot that is live. -/
theorem objSlot_live (s : State) (t : Fin 48) (h : liveSlot s t = true) :
    objSlot s t =
      { s with
        tstage := s.tstage.write t (s.sotile.read (objTile (objEntry s t)).toFin)
        cmap := (resolvePalette (slotPal s t) s).2.cmap
        pcnt := (resolvePalette (slotPal s t) s).2.pcnt
        topal := (resolvePalette (slotPal s t) s).2.topal
        toam := s.toam.write t (liveEntry s.cfg (objEntry s t) t (resolvePalette (slotPal s t) s).1) } := by
  simp only [liveSlot] at h
  have hr : ∀ b, resolvePalette (slotPal s t) { s with tstage := b } =
      ((resolvePalette (slotPal s t) s).1, { (resolvePalette (slotPal s t) s).2 with tstage := b }) := by
    intro b
    simp only [resolvePalette]
    split
    · rfl
    · split <;> rfl
  simp only [objSlot, h, if_true, stageTile, State.writeTstage]
  rw [show objPal (objEntry s t) = slotPal s t from rfl, hr]
  simp only [State.writeToam]
  rw [resolvePalette_frame]

/-- A slot changes CMAP, PCNT, TOPAL, TSTAGE and TOAM only. -/
theorem objSlot_frame (s : State) (t : Fin 48) :
    objSlot s t =
      { s with
        cmap := (objSlot s t).cmap
        pcnt := (objSlot s t).pcnt
        topal := (objSlot s t).topal
        tstage := (objSlot s t).tstage
        toam := (objSlot s t).toam } := by
  cases h : liveSlot s t
  · rw [objSlot_dead s t h]; rfl
  · rw [objSlot_live s t h]

/-- The fields a slot leaves alone, one by one. -/
@[simp] theorem objSlot_same (s : State) (t : Fin 48) :
    (objSlot s t).spal = s.spal ∧ (objSlot s t).sobj = s.sobj ∧ (objSlot s t).sotile = s.sotile ∧
    (objSlot s t).lut = s.lut ∧ (objSlot s t).lutv = s.lutv ∧ (objSlot s t).tct = s.tct ∧
    (objSlot s t).mapa = s.mapa ∧ (objSlot s t).mapb = s.mapb ∧ (objSlot s t).frameEngine = s.frameEngine ∧
    (objSlot s t).pfEngine = s.pfEngine ∧ (objSlot s t).cfg = s.cfg ∧ (objSlot s t).inputs = s.inputs ∧
    (objSlot s t).pfIssued = s.pfIssued ∧ (objSlot s t).tick = s.tick := by
  rw [objSlot_frame]
  simp

/-- A slot writes its own sprite entry only. -/
theorem objSlot_toam_ne (s : State) {t k : Fin 48} (h : t ≠ k) : (objSlot s t).toam.read k = s.toam.read k := by
  cases hl : liveSlot s t
  · rw [objSlot_dead s t hl]; simp [Table.read_write_ne _ _ h]
  · rw [objSlot_live s t hl]; simp [Table.read_write_ne _ _ h]

/-- A slot writes its own staging place only. -/
theorem objSlot_tstage_ne (s : State) {t k : Fin 48} (h : t ≠ k) : (objSlot s t).tstage.read k = s.tstage.read k := by
  cases hl : liveSlot s t
  · rw [objSlot_dead s t hl]; simp
  · rw [objSlot_live s t hl]; simp [Table.read_write_ne _ _ h]

/-! ## The scan -/

/-- A scan of some slots changes CMAP, PCNT, TOPAL, TSTAGE and TOAM only. -/
theorem scan_frame (l : List (Fin 48)) (s : State) :
    l.foldl objSlot s =
      { s with
        cmap := (l.foldl objSlot s).cmap
        pcnt := (l.foldl objSlot s).pcnt
        topal := (l.foldl objSlot s).topal
        tstage := (l.foldl objSlot s).tstage
        toam := (l.foldl objSlot s).toam } := by
  induction l generalizing s with
  | nil => rfl
  | cons t l ih =>
    simp only [List.foldl_cons]
    exact (ih (objSlot s t)).trans (by simp only [objSlot_same])

/-- A scan leaves the sprite entry and the staging place of the slots it does not visit. -/
theorem scan_untouched (l : List (Fin 48)) (s : State) {k : Fin 48} (h : k ∉ l) :
    (l.foldl objSlot s).toam.read k = s.toam.read k ∧ (l.foldl objSlot s).tstage.read k = s.tstage.read k := by
  induction l generalizing s with
  | nil => exact ⟨rfl, rfl⟩
  | cons t l ih =>
    simp only [List.mem_cons, not_or] at h
    simp only [List.foldl_cons]
    rw [(ih _ h.2).1, (ih _ h.2).2]
    exact ⟨objSlot_toam_ne s (Ne.symm h.1), objSlot_tstage_ne s (Ne.symm h.1)⟩

/-- During a scan the objects are those the scan began with. -/
theorem scan_objects (l : List (Fin 48)) (s : State) (k : Fin 48) :
    liveSlot (l.foldl objSlot s) k = liveSlot s k ∧ slotPal (l.foldl objSlot s) k = slotPal s k ∧
      objEntry (l.foldl objSlot s) k = objEntry s k := by
  rw [scan_frame]
  exact ⟨rfl, rfl, rfl⟩

/-- Every slot is scanned once, in ascending order (rule R143). -/
theorem mem_slots (k : Fin 48) : k ∈ slots := by
  unfold slots
  exact List.mem_finRange k

theorem slots_nodup : slots.Nodup := by
  unfold slots
  exact List.nodup_finRange 48

/-- The slots before `k`, `k`, and the slots after it. -/
theorem slots_split (k : Fin 48) : ∃ l r, slots = l ++ k :: r ∧ k ∉ l ∧ k ∉ r := by
  obtain ⟨l, r, h⟩ := List.append_of_mem (mem_slots k)
  have hn := slots_nodup
  rw [h, List.nodup_append] at hn
  refine ⟨l, r, h, ?_, ?_⟩
  · intro hk; exact hn.2.2 k hk k (by simp) rfl
  · exact (List.nodup_cons.mp hn.2.1).1

/-- Slot `k`'s entry and staging place after the scan are those its own turn left. -/
theorem scan_slot {l r : List (Fin 48)} {k : Fin 48} (s : State) (hr : k ∉ r) :
    ((l ++ k :: r).foldl objSlot s).toam.read k = (objSlot (l.foldl objSlot s) k).toam.read k ∧
    ((l ++ k :: r).foldl objSlot s).tstage.read k = (objSlot (l.foldl objSlot s) k).tstage.read k := by
  simp only [List.foldl_append, List.foldl_cons]
  exact scan_untouched r _ hr

/-! ## The palettes in the order they are first met (rule R148) -/

theorem mem_firstMet (ps : List (BitVec 5)) (p : BitVec 5) : p ∈ firstMet ps ↔ p ∈ ps := by
  induction ps with
  | nil => simp [firstMet]
  | cons q ps ih =>
    simp only [firstMet, List.mem_cons, List.mem_filter, ih, decide_eq_true_eq]
    by_cases h : p = q <;> simp [h]

theorem firstMet_nodup (ps : List (BitVec 5)) : (firstMet ps).Nodup := by
  induction ps with
  | nil => exact List.nodup_nil
  | cons q ps ih =>
    refine List.nodup_cons.mpr ⟨?_, ih.filter _⟩
    simp

/-- The palettes first met in a list come first in a longer one. -/
theorem firstMet_append (ps qs : List (BitVec 5)) :
    firstMet (ps ++ qs) = firstMet ps ++ (firstMet qs).filter (· ∉ ps) := by
  induction ps with
  | nil => simp [firstMet]
  | cons p ps ih =>
    simp only [List.cons_append, firstMet, ih, List.filter_append, List.filter_filter, List.cons.injEq, true_and,
      List.append_cancel_left_eq]
    congr 1
    funext x
    simp only [List.mem_cons, not_or, Bool.decide_and, ne_eq]

/-- One more live object with palette `p`. -/
theorem firstMet_concat (ps : List (BitVec 5)) (p : BitVec 5) :
    firstMet (ps ++ [p]) = if p ∈ ps then firstMet ps else firstMet ps ++ [p] := by
  rw [firstMet_append]
  by_cases h : p ∈ ps <;> simp [firstMet, h]

/-- A palette's slot is decided when it is first met. -/
theorem slotByRank_append (ps qs : List (BitVec 5)) {p : BitVec 5} (h : p ∈ ps) :
    slotByRank (ps ++ qs) p = slotByRank ps p := by
  have hm := (mem_firstMet ps p).mpr h
  simp only [slotByRank, firstMet_append, List.idxOf_append_of_mem hm]

/-- The compaction map after live objects with palettes `ps`: slots by rank, and the count of slots handed out. -/
structure CompactionOf (ps : List (BitVec 5)) (s : State) : Prop where
  map : ∀ p : BitVec 5, (s.cmap.read p.toFin).toNat = if p ∈ ps then slotByRank ps p else 0
  count : s.pcnt.toNat = min 15 (firstMet ps).length

theorem compactionOf_start (s : State) : CompactionOf [] (objStart s) :=
  ⟨fun p => by simp [objStart], rfl⟩

/-- One palette resolved: the slot found is its rank, and the map is that of one more live object (rules R147, R148). -/
theorem resolvePalette_rank {ps : List (BitVec 5)} {s : State} (h : CompactionOf ps s) (p : BitVec 5) :
    (resolvePalette p s).1.toNat = slotByRank (ps ++ [p]) p ∧ CompactionOf (ps ++ [p]) (resolvePalette p s).2 := by
  have hcount := h.count
  by_cases hp : p ∈ ps
  · have hmap := h.map p
    simp only [hp, if_true] at hmap
    have hps : ∀ q, slotByRank (ps ++ [p]) q = slotByRank ps q := by
      intro q; simp only [slotByRank, firstMet_concat, hp, if_true]
    have hC : CompactionOf (ps ++ [p]) s := by
      refine ⟨fun q => ?_, by rw [hcount, firstMet_concat, if_pos hp]⟩
      rw [h.map q, hps q]
      by_cases hq : q = p
      · subst hq; simp [hp]
      · simp [hq]
    rcases resolvePalette_cases p s with ⟨-, e⟩ | ⟨h0, hlt, -⟩ | ⟨h0, -, e⟩
    · rw [e]; exact ⟨by rw [hmap, hps], hC⟩
    · exfalso
      rw [h0] at hmap
      have hi := List.idxOf_lt_length_of_mem ((mem_firstMet ps p).mpr hp)
      have : s.pcnt.toNat < 15 := by simpa [BitVec.lt_def] using hlt
      simp only [slotByRank] at hmap
      split at hmap
      · simp at hmap
      · omega
    · rw [e]
      exact ⟨by rw [hps, ← hmap, h0], hC⟩
  · have hmap := h.map p
    simp only [hp, if_false] at hmap
    have h0 : s.cmap.read p.toFin = 0#4 := BitVec.eq_of_toNat_eq (by simpa using hmap)
    have hnew : firstMet (ps ++ [p]) = firstMet ps ++ [p] := by rw [firstMet_concat, if_neg hp]
    have hnot : p ∉ firstMet ps := fun hm => hp ((mem_firstMet ps p).mp hm)
    have hidx : (firstMet (ps ++ [p])).idxOf p = (firstMet ps).length := by
      rw [hnew, List.idxOf_append_of_notMem hnot]; simp
    have hother : ∀ q, q ≠ p → (if q ∈ ps ++ [p] then slotByRank (ps ++ [p]) q else 0) =
        if q ∈ ps then slotByRank ps q else 0 := by
      intro q hq
      by_cases hm : q ∈ ps
      · simp [hm, slotByRank_append ps [p] hm]
      · simp [hm, hq]
    rcases resolvePalette_cases p s with ⟨hne, -⟩ | ⟨-, hlt, e⟩ | ⟨-, hfull, e⟩
    · exact absurd h0 hne
    · have hlt' : s.pcnt.toNat < 15 := by simpa [BitVec.lt_def] using hlt
      have hlen : s.pcnt.toNat = (firstMet ps).length := by omega
      have hs : (s.pcnt + 1#4).toNat = s.pcnt.toNat + 1 := by
        rw [BitVec.toNat_add]; simp; omega
      rw [e]
      refine ⟨by simp only [slotByRank, hidx, hs]; rw [if_pos (by omega)]; omega, ?_, ?_⟩
      · intro q
        simp only [Table.read_write]
        by_cases hq : q = p
        · subst hq
          simp only [if_true, List.mem_append, List.mem_singleton, or_true, slotByRank, hidx, hs]
          rw [if_pos (by omega)]; omega
        · rw [hother q hq, ← h.map q, if_neg]
          intro hc; apply hq
          exact BitVec.eq_of_toFin_eq hc.symm
      · simp only [hs, hnew, List.length_append, List.length_singleton]; omega
    · have hfull' : s.pcnt.toNat = 15 := by rw [hfull]; rfl
      rw [e]
      refine ⟨by simp only [slotByRank, hidx]; rw [if_neg (by omega)]; rfl, ?_, ?_⟩
      · intro q
        by_cases hq : q = p
        · subst hq
          simp only [h0, List.mem_append, List.mem_singleton, or_true, if_true, slotByRank, hidx]
          rw [if_neg (by omega)]; rfl
        · rw [hother q hq, ← h.map q]
      · simp only [hnew, List.length_append, List.length_singleton]; omega

/-- The palettes of the live objects among some slots. -/
def livePalettesOf (l : List (Fin 48)) (s : State) : List (BitVec 5) := (l.filter (liveSlot s)).map (slotPal s)

theorem livePalettes_eq (s : State) : livePalettes s = livePalettesOf slots s := rfl

/-- The compaction map as the scan has gone through some slots. -/
theorem scan_compaction (l : List (Fin 48)) (s : State) :
    CompactionOf (livePalettesOf l s) (l.foldl objSlot (objStart s)) := by
  induction l using List.reverseRecOn with
  | nil => exact compactionOf_start s
  | append_singleton l t ih =>
    simp only [List.foldl_append, List.foldl_cons, List.foldl_nil]
    have ho := scan_objects l (objStart s) t
    have hs : liveSlot (objStart s) t = liveSlot s t := rfl
    have hp : slotPal (objStart s) t = slotPal s t := rfl
    cases hl : liveSlot s t
    · rw [objSlot_dead _ _ (by rw [ho.1, hs, hl])]
      simpa [livePalettesOf, hl] using (⟨ih.map, ih.count⟩ : CompactionOf _ (State.writeToam _ _ _))
    · rw [objSlot_live _ _ (by rw [ho.1, hs, hl])]
      have hr := (resolvePalette_rank ih (slotPal s t)).2
      rw [ho.2.1, hp]
      have hlist : livePalettesOf (l ++ [t]) s = livePalettesOf l s ++ [slotPal s t] := by
        simp [livePalettesOf, List.filter_append, hl]
      rw [hlist]
      exact ⟨hr.map, hr.count⟩

end Sys2Proof.Machine
end

