-- ==== Sys2Proof/Laws/Engine.lean ====
section
/-! SUPPORT. What an operation, a turn of an engine, a move of the host and a step can do, said once. -/

namespace Sys2Proof.Machine

/-! ## Operations -/

/-- LUTINIT changes LUT and LUTV only (40_lut.md rule R113). -/
theorem lutinit_frame (s : State) : lutinit s = { s with lut := (lutinit s).lut, lutv := true } := rfl

/-- PALCONV changes TCT and the counter of free values only (41_palette.md rule R130). -/
theorem palconv_frame (s : State) : palconv s = { s with tct := .tabulate (palWord s), tick := (palconv s).tick } := by
  simp only [palconv, palEnd]
  split <;> rfl

/-- OBJCONV changes CMAP, PCNT, TOPAL, TSTAGE, TOAM and the counter of free values only (42_object.md rule R154). -/
theorem objconv_frame (s : State) : objconv s =
    { s with
      cmap := (objconv s).cmap
      pcnt := (objconv s).pcnt
      topal := (objconv s).topal
      tstage := (objconv s).tstage
      toam := (objconv s).toam
      tick := (objconv s).tick } := by
  unfold objconv objScan objEnd State.nextTick
  rw [scan_frame]
  rfl

/-- PFWRITE changes one element of each map (43_playfield.md rule R193). -/
theorem pfwrite_frame (addr value : Word) (s : State) : pfwrite addr value s =
    { s with
      mapa := s.mapa.write (pfDest s.cfg addr) (pfWordA s.cfg value)
      mapb := s.mapb.write (pfDest s.cfg addr) (pfWordB s.cfg value) } := rfl

/-! ## Turns -/

/-- PALCONV's turn changes one entry of TCT only. -/
theorem palTurn_frame (i : Fin 256) (old : List Overwritten) (s : State) :
    palTurn i old s = { s with tct := s.tct.write i (palWord (s.seenFor (.tct i) old) i) } := by
  simp only [palTurn, readingInputs, palEntry, State.writeTct, State.withInputsOf, State.seenFor]

/-- OBJCONV's turn changes CMAP, PCNT, TOPAL, TSTAGE and TOAM only, to what a slot's turn makes of the inputs it sees. -/
theorem objTurn_frame (t : Fin 48) (old : List Overwritten) (s : State) :
    objTurn t old s =
      { s with
        cmap := (objSlot (s.seenFor (.toam t) old) t).cmap
        pcnt := (objSlot (s.seenFor (.toam t) old) t).pcnt
        topal := (objSlot (s.seenFor (.toam t) old) t).topal
        tstage := (objSlot (s.seenFor (.toam t) old) t).tstage
        toam := (objSlot (s.seenFor (.toam t) old) t).toam } := by
  simp only [objTurn, readingInputs]
  rw [objSlot_frame]
  rfl

/-- With nothing overwritten a turn reads the tables as they stand. -/
@[simp] theorem palTurn_nil (i : Fin 256) (s : State) : palTurn i [] s = palEntry i s :=
  readingInputs_nil rfl rfl rfl _

@[simp] theorem objTurn_nil (t : Fin 48) (s : State) : objTurn t [] s = objSlot s t :=
  readingInputs_nil (by simp) (by simp) (by simp) _

/-- The end of PALCONV changes the counter of free values only. -/
theorem palEnd_frame (s : State) : palEnd s = { s with tick := (palEnd s).tick } := by
  simp only [palEnd]
  split <;> rfl

/-! ### The frame engine's turn, by what it is doing -/

theorem frameWork_idle {s : State} (h : s.frameEngine = .idle) : frameWork s = s := by simp only [frameWork, h]

theorem frameWork_lutinit {s : State} {i : Fin 256} (h : s.frameEngine = .lutinit i) :
    frameWork s = afterEntry i (lutEntry i s).setFrameEngine .lutinit
      ((lutEntry i s).setLutv.setFrameEngine .idle) := by simp only [frameWork, h]

theorem frameWork_palconv {s : State} {i : Fin 256} {old : List Overwritten} (h : s.frameEngine = .palconv i old) :
    frameWork s = afterEntry i (palTurn i old s).setFrameEngine (.palconv · old)
      ((palEnd (palTurn i old s)).setFrameEngine .idle) := by simp only [frameWork, h]

theorem frameWork_objconv {s : State} {t : Fin 48} {old : List Overwritten} (h : s.frameEngine = .objconv t old) :
    frameWork s = afterSlot t (objTurn t old s).setFrameEngine (.objconv · old)
      ((objEnd (objTurn t old s)).setFrameEngine .idle) := by simp only [frameWork, h]

theorem frameWork_framePal {s : State} {i : Fin 256} {old : List Overwritten} (h : s.frameEngine = .framePal i old) :
    frameWork s = afterEntry i (palTurn i old s).setFrameEngine (.framePal · old)
      ((objStart (palEnd (palTurn i old s))).setFrameEngine (.frameObj 0 old)) := by simp only [frameWork, h]

theorem frameWork_frameObj {s : State} {t : Fin 48} {old : List Overwritten} (h : s.frameEngine = .frameObj t old) :
    frameWork s = afterSlot t (objTurn t old s).setFrameEngine (.frameObj · old)
      ((objEnd (objTurn t old s)).setFrameEngine .idle) := by simp only [frameWork, h]

/-- A turn of the frame engine leaves the maps, the input tables, the other engine and the model's other fields alone. -/
@[simp] theorem frameWork_same (s : State) :
    (frameWork s).mapa = s.mapa ∧ (frameWork s).mapb = s.mapb ∧ (frameWork s).pfEngine = s.pfEngine ∧
    (frameWork s).cfg = s.cfg ∧ (frameWork s).inputs = s.inputs ∧ (frameWork s).pfIssued = s.pfIssued ∧
    (frameWork s).spal = s.spal ∧ (frameWork s).sobj = s.sobj ∧ (frameWork s).sotile = s.sotile := by
  cases h : s.frameEngine with
  | idle => simp [frameWork_idle h]
  | lutinit i =>
    rw [frameWork_lutinit h, afterEntry]
    split <;> simp [lutEntry]
  | palconv i old =>
    rw [frameWork_palconv h, afterEntry, palEnd_frame, palTurn_frame]
    split <;> simp
  | objconv t old =>
    rw [frameWork_objconv h, afterSlot, objTurn_frame]
    split <;> simp [objEnd]
  | framePal i old =>
    rw [frameWork_framePal h, afterEntry, palEnd_frame, palTurn_frame]
    split <;> simp [objStart]
  | frameObj t old =>
    rw [frameWork_frameObj h, afterSlot, objTurn_frame]
    split <;> simp [objEnd]

/-- A turn of the playfield engine changes the maps and its own progress only. -/
theorem pfWork_frame (s : State) :
    pfWork s = { s with mapa := (pfWork s).mapa, mapb := (pfWork s).mapb, pfEngine := (pfWork s).pfEngine } := by
  simp only [pfWork]
  split <;> rfl

/-! ## Moves and steps -/

/-- What a move of the host that is not refused does. -/
theorem hostMove_cases {m : HostMove} {s t : State} (h : hostMove m s = .next t) :
    (∃ w e, (m = .command w ∨ m = .issue w) ∧ decode w = .error e ∧ t = s) ∨
    (∃ w i, m = .command w ∧ decode w = .ok i ∧ s.busyFor i = none ∧ exec i (s.noteIssue i) = .next t) ∨
    (∃ w i, m = .issue w ∧ decode w = .ok i ∧ s.busyFor i = none ∧ t = beginOp i (s.noteIssue i)) ∨
    (m = .workFrame ∧ t = frameWork s) ∨
    (m = .workPlayfield ∧ t = pfWork s) ∨
    (∃ i v, m = .writeSpal i v ∧ t = s.hostWriteSpal i v) ∨
    (∃ k v, m = .writeSobj k v ∧ t = s.hostWriteSobj k v) ∨
    (∃ k b, m = .writeSotile k b ∧ s.cfg.blockOk b = true ∧ t = s.hostWriteSotile k b) ∨
    (m = .clearMaps ∧ s.pfIssued = false ∧ t = clearMaps s) ∨
    (m = .reset ∧ t = resetEvent s) := by
  cases m with
  | command w =>
    simp only [hostMove, runCommand] at h
    cases hd : decode w with
    | error e => rw [hd] at h; cases h; exact .inl ⟨w, e, .inl rfl, hd, rfl⟩
    | ok i =>
      rw [hd] at h
      cases hb : s.busyFor i with
      | some r => simp only [hb] at h; cases h
      | none => simp only [hb] at h; exact .inr (.inl ⟨w, i, rfl, hd, hb, h⟩)
  | issue w =>
    simp only [hostMove, issueCommand] at h
    cases hd : decode w with
    | error e => rw [hd] at h; cases h; exact .inl ⟨w, e, .inr rfl, hd, rfl⟩
    | ok i =>
      rw [hd] at h
      cases hb : s.busyFor i with
      | some r => simp only [hb] at h; cases h
      | none => simp only [hb] at h; cases h; exact .inr (.inr (.inl ⟨w, i, rfl, hd, hb, rfl⟩))
  | workFrame => cases h; simp
  | workPlayfield => cases h; simp
  | writeSpal i v => cases h; simp
  | writeSobj k v => cases h; simp
  | writeSotile k b =>
    simp only [hostMove] at h
    split at h
    · next hb => cases h; simp [hb]
    · cases h
  | clearMaps =>
    simp only [hostMove] at h
    split at h
    · cases h
    · next hp => cases h; simp [Bool.eq_false_iff.mpr hp]
  | reset => cases h; simp

/-- What a step that is not refused does: the oldest pending move, or the engines going on. -/
theorem step_cases {s t : State} (h : step s = .next t) :
    (s.inputs = [] ∧ t = goOn s) ∨ ∃ m ms, s.inputs = m :: ms ∧ hostMove m (s.setInputs ms) = .next t := by
  simp only [step, nextHappening] at h
  split at h
  · next hi => cases h; exact .inl ⟨hi, rfl⟩
  · next m ms hi => exact .inr ⟨m, ms, hi, h⟩

end Sys2Proof.Machine
end

