-- ==== Sys2Proof/Laws/PerInstr.lean ====
section
/-! SUPPORT. Statements about every operation, one lemma per constructor. Family OpField: the operation code of an operation's
command word is its code in 30_encoding.md rule R81. -/

namespace Sys2Proof.Laws.OpField

/-- The operation code in the command word is the operation's (30_encoding.md rules R80, R81). -/
def Statement (i : Instr) : Prop := cmdOp (encode i) = i.op

theorem lutinit : Statement .lutinit := cmdOp_encode .lutinit

theorem palconv : Statement .palconv := cmdOp_encode .palconv

theorem objconv : Statement .objconv := cmdOp_encode .objconv

theorem pfwrite (addr data : Word) : Statement (.pfwrite addr data) := cmdOp_encode (.pfwrite addr data)

theorem frame : Statement .frame := cmdOp_encode .frame

end Sys2Proof.Laws.OpField
end

