-- ==== Sys2Proof/Laws/Playfield.lean ====
section
/-! SUPPORT. The fields and computed values of PFWRITE as numbers (30_encoding.md rules R89, R90, R91; 43_playfield.md rules
R183 to R189). -/

namespace Sys2Proof.Machine

theorem pfIdx_toNat (a : Word) : (pfIdx a).toNat = a.toNat / 2 % 1024 := by
  simp [pfIdx, Nat.shiftRight_eq_div_pow]

theorem pfTile9_toNat (v : Word) : (pfTile9 v).toNat = 256 * (v.toNat / 32768) + v.toNat % 256 := by
  have := v.isLt
  simp only [pfTile9, BitVec.toNat_append, BitVec.extractLsb'_toNat]
  rw [← Nat.shiftLeft_add_eq_or_of_lt (by omega)]
  simp only [Nat.shiftLeft_eq, Nat.shiftRight_eq_div_pow]
  omega

theorem pfGrp_toNat (v : Word) : (pfGrp v).toNat = v.toNat / 256 % 64 := by
  simp [pfGrp, Nat.shiftRight_eq_div_pow]

theorem pfSub_toNat (v : Word) : (pfSub v).toNat = v.toNat / 256 % 64 % 4 := by
  simp [pfSub, pfGrp_toNat]

theorem pfNib_toNat (v : Word) : (pfNib v).toNat = v.toNat / 256 % 64 / 4 := by
  simp [pfNib, pfGrp_toNat, Nat.shiftRight_eq_div_pow]
  omega

theorem pfHi_toNat (a : Word) : (pfHi a).toNat = a.toNat / 2 % 1024 / 32 := by
  simp [pfHi, pfIdx_toNat, Nat.shiftRight_eq_div_pow]
  omega

theorem pfLo_toNat (a : Word) : (pfLo a).toNat = a.toNat / 2 % 1024 % 32 := by
  simp [pfLo, pfIdx_toNat]

theorem rotate_toNat (d : RotDelta) (v : BitVec 5) :
    (rotate d v).toNat = (((v.toNat : Int) + (match d with | .plusOne => 1 | .minusOne => -1)) % 32).toNat := by
  have := v.isLt
  cases d
  · simp only [rotate, BitVec.toNat_add, BitVec.toNat_ofNat]
    omega
  · simp only [rotate, BitVec.toNat_sub, BitVec.toNat_ofNat]
    omega

theorem mapEntry_toNat (n : BitVec 4) (t : BitVec 10) : (mapEntry n t).toNat = 4096 * n.toNat + t.toNat := by
  have := t.isLt
  simp only [mapEntry, BitVec.toNat_append]
  rw [← Nat.shiftLeft_add_eq_or_of_lt (by omega), ← Nat.shiftLeft_add_eq_or_of_lt (by simp)]
  simp [Nat.shiftLeft_eq]
  omega

/-- One of the two words PFWRITE writes is the clear value of its map (43_playfield.md rule R192). -/
theorem pfWords_owned (c : Cfg) (v : Word) : pfWordB c v = c.mapbClear ∨ pfWordA c v = c.mapaClear := by
  simp only [pfWordA, pfWordB]
  split
  · exact .inl rfl
  · exact .inr rfl

end Sys2Proof.Machine
end

