-- ==== Sys2Proof/Laws/Turns.lean ====
section
/-! SUPPORT. Several turns of an engine: what a loop has done after some of its turns, and what the two engines do not share
(20_memory.md rules R60, R61). -/

namespace Sys2Proof.Machine

theorem frameTurns_last (n : Nat) (s : State) : frameTurns (n + 1) s = frameWork (frameTurns n s) := by
  induction n generalizing s with
  | zero => rfl
  | succ n ih => rw [frameTurns, ih, frameTurns]

theorem frameTurns_add (m n : Nat) (s : State) : frameTurns (m + n) s = frameTurns n (frameTurns m s) := by
  induction m generalizing s with
  | zero => simp [frameTurns]
  | succ m ih => rw [Nat.succ_add]; simp only [frameTurns]; exact ih _

/-- The table after the elements `i`, ..., `i + n - 1` have been written with `f`. -/
def filled {α : Type} {m : Nat} (t : Table α m) (f : Fin m → α) (i n : Nat) : Table α m :=
  .tabulate fun b => if i ≤ b.val ∧ b.val < i + n then f b else t.read b

theorem filled_none {α : Type} {m : Nat} (t : Table α m) (f : Fin m → α) (i : Nat) : filled t f i 0 = t := by
  apply Table.ext_read
  intro b
  simp only [filled, Table.read_tabulate, ite_eq_right_iff, and_imp]
  omega

theorem filled_next {α : Type} {m : Nat} (t : Table α m) (f : Fin m → α) (i : Fin m) (n : Nat) :
    filled (t.write i (f i)) f (i.val + 1) n = filled t f i.val (n + 1) := by
  apply Table.ext_read
  intro b
  simp only [filled, Table.read_tabulate, Table.read_write]
  by_cases hb : i = b
  · subst hb
    simp
  · have : i.val ≠ b.val := fun e => hb (Fin.ext e)
    simp only [hb, if_false]
    congr 1
    apply propext
    omega

theorem filled_all {α : Type} {m : Nat} (t : Table α m) (f : Fin m → α) : filled t f 0 m = .tabulate f := by
  apply Table.ext_read
  intro b
  simp [filled]

/-- LUTINIT after `n` turns (40_lut.md rule R113). -/
theorem lutinit_turns (n : Nat) (s : State) (i : Fin 256) (h : s.frameEngine = .lutinit i) (hn : i.val + n < 256) :
    frameTurns n s =
      { s with
        lut := filled s.lut (fun b => lutword (BitVec.ofFin b)) i.val n
        frameEngine := .lutinit ⟨i.val + n, hn⟩ } := by
  induction n generalizing s i with
  | zero =>
    simp only [frameTurns, filled_none]
    cases s
    simp_all
  | succ n ih =>
    have hw : frameWork s = (lutEntry i s).setFrameEngine (.lutinit ⟨i.val + 1, by omega⟩) := by
      simp only [frameWork, h, afterEntry]
      rw [dif_pos (by omega)]
    simp only [frameTurns]
    rw [hw, ih _ ⟨i.val + 1, by omega⟩ rfl (by simp; omega)]
    simp only [lutEntry, State.setFrameEngine, State.writeLut]
    rw [filled_next s.lut (fun b => lutword (BitVec.ofFin b)) i n]
    simp [Nat.add_assoc, Nat.add_comm 1 n]

/-- PALCONV, alone or as the first part of FRAME, after `n` turns (41_palette.md rule R130). -/
theorem palconv_turns (c : Fin 256 → FrameEngine)
    (hc : ∀ i s, s.frameEngine = c i → ∀ h : i.val + 1 < 256,
      frameWork s = (palEntry i s).setFrameEngine (c ⟨i.val + 1, h⟩))
    (n : Nat) (s : State) (i : Fin 256) (h : s.frameEngine = c i) (hn : i.val + n < 256) :
    frameTurns n s =
      { s with tct := filled s.tct (palWord s) i.val n, frameEngine := c ⟨i.val + n, hn⟩ } := by
  induction n generalizing s i with
  | zero =>
    simp only [frameTurns, filled_none]
    cases s
    simp_all
  | succ n ih =>
    simp only [frameTurns]
    rw [hc i s h (by omega), ih _ ⟨i.val + 1, by omega⟩ rfl (by simp; omega)]
    have e : ∀ tc fe, palWord { s with tct := tc, frameEngine := fe } = palWord s := fun _ _ => rfl
    simp only [palEntry, State.setFrameEngine, State.writeTct, e]
    rw [filled_next s.tct (palWord s) i n]
    simp [Nat.add_assoc, Nat.add_comm 1 n]

/-- A state change that a slot's turn does not notice is not noticed by the scan. -/
theorem scan_unaware (f : State → State) (h : ∀ s t, objSlot (f s) t = f (objSlot s t)) (l : List (Fin 48)) (s : State) :
    l.foldl objSlot (f s) = f (l.foldl objSlot s) := by
  induction l generalizing s with
  | nil => rfl
  | cons t l ih => simp only [List.foldl_cons, h, ih]

/-- The maps, TCT and the engines' progress are not noticed by a slot's turn (42_object.md rule R157). -/
theorem objSlot_unaware (s : State) (t : Fin 48) (tc : Table Word 256) (ma mb : Table Word 4096) (fe : FrameEngine)
    (pe : PfEngine) :
    objSlot { s with tct := tc, mapa := ma, mapb := mb, frameEngine := fe, pfEngine := pe } t =
      { objSlot s t with tct := tc, mapa := ma, mapb := mb, frameEngine := fe, pfEngine := pe } := by
  have hr : ∀ p, resolvePalette p { s with tct := tc, mapa := ma, mapb := mb, frameEngine := fe, pfEngine := pe } =
      ((resolvePalette p s).1,
        { (resolvePalette p s).2 with tct := tc, mapa := ma, mapb := mb, frameEngine := fe, pfEngine := pe }) := by
    intro p
    simp only [resolvePalette]
    split
    · rfl
    · split <;> rfl
  cases hl : liveSlot s t
  · rw [objSlot_dead s t hl, objSlot_dead _ t (by exact hl)]
    rfl
  · rw [objSlot_live s t hl, objSlot_live _ t (by exact hl)]
    simp only [show slotPal { s with tct := tc, mapa := ma, mapb := mb, frameEngine := fe, pfEngine := pe } t =
      slotPal s t from rfl, hr]
    rfl

/-- The maps and the playfield engine are not noticed by a turn of the frame engine (20_memory.md rule R61). -/
theorem frameWork_unaware (s : State) (ma mb : Table Word 4096) (pe : PfEngine) :
    frameWork { s with mapa := ma, mapb := mb, pfEngine := pe } =
      { frameWork s with mapa := ma, mapb := mb, pfEngine := pe } := by
  have hs : ∀ t old fe, objTurn t old { s with mapa := ma, mapb := mb, frameEngine := fe, pfEngine := pe } =
      { objTurn t old s with mapa := ma, mapb := mb, frameEngine := fe, pfEngine := pe } := by
    intro t old fe
    have h := objSlot_unaware (s.seenFor (.toam t) old) t s.tct ma mb fe pe
    have h' : objSlot (State.seenFor { s with mapa := ma, mapb := mb, frameEngine := fe, pfEngine := pe } (.toam t) old) t =
        { objSlot (s.seenFor (.toam t) old) t with
          tct := s.tct, mapa := ma, mapb := mb, frameEngine := fe, pfEngine := pe } := h
    rw [objTurn_frame, objTurn_frame]
    simp only [h']
  cases h : s.frameEngine with
  | idle => simp only [frameWork, h]
  | lutinit i => simp only [frameWork, h, afterEntry]; split <;> rfl
  | palconv i =>
    simp only [frameWork, h, afterEntry, palEnd]
    split <;> [rfl; (split <;> split <;> first | rfl | contradiction)]
  | objconv t => simp only [frameWork, h, afterSlot, hs]; split <;> rfl
  | framePal i =>
    simp only [frameWork, h, afterEntry, palEnd]
    split <;> [rfl; (split <;> split <;> first | rfl | contradiction)]
  | frameObj t => simp only [frameWork, h, afterSlot, hs]; split <;> rfl

/-- The palettes published so far stay published, and a slot not handed out yet is untouched (42_object.md rule R149). -/
theorem scan_topal (l : List (Fin 48)) (s : State) :
    s.pcnt.toNat ≤ (l.foldl objSlot s).pcnt.toNat ∧
    (∀ d : Fin 16, d.val ≤ s.pcnt.toNat → (l.foldl objSlot s).topal.read d = s.topal.read d) ∧
    (∀ d : Fin 16, (l.foldl objSlot s).pcnt.toNat < d.val → (l.foldl objSlot s).topal.read d = s.topal.read d) := by
  induction l generalizing s with
  | nil => simp
  | cons t l ih =>
    simp only [List.foldl_cons]
    have key : s.pcnt.toNat ≤ (objSlot s t).pcnt.toNat ∧
        (∀ d : Fin 16, d.val ≤ s.pcnt.toNat → (objSlot s t).topal.read d = s.topal.read d) ∧
        (∀ d : Fin 16, (objSlot s t).pcnt.toNat < d.val → (objSlot s t).topal.read d = s.topal.read d) := by
      cases hl : liveSlot s t
      · rw [objSlot_dead s t hl]
        simp
      · rw [objSlot_live s t hl]
        simp only
        rcases resolvePalette_cases (slotPal s t) s with ⟨-, e⟩ | ⟨-, hlt, e⟩ | ⟨-, -, e⟩
        · rw [e]
          simp
        · rw [e]
          simp only
          have hlt' : s.pcnt.toNat < 15 := by simpa [BitVec.lt_def] using hlt
          have hs : (s.pcnt + 1#4).toNat = s.pcnt.toNat + 1 := by
            rw [BitVec.toNat_add]
            simp
            omega
          have ht : ∀ d : Fin 16, d.val ≠ s.pcnt.toNat + 1 →
              (publish (slotPal s t) (s.pcnt + 1#4) (s.setPcnt (s.pcnt + 1#4))).topal.read d = s.topal.read d := by
            intro d hd
            apply Table.ext_read
            intro i
            rw [publish_read, dif_neg]
            · rfl
            · rintro ⟨h, -⟩
              apply hd
              rw [← h]
              exact hs
          exact ⟨by omega, fun d hd => ht d (by omega), fun d hd => ht d (by omega)⟩
        · rw [e]
          simp
    obtain ⟨h1, h2, h3⟩ := ih (objSlot s t)
    obtain ⟨k1, k2, k3⟩ := key
    refine ⟨by omega, ?_, ?_⟩
    · intro d hd
      rw [h2 d (by omega), k2 d hd]
    · intro d hd
      rw [h3 d hd, k3 d (by omega)]

end Sys2Proof.Machine
end

