-- ==== Sys2Proof/Tests/Slice0.lean ====
section
/-! SUPPORT. The model's own tests. Expected values are the spec's: 95_test_vectors.md (vector names in the comments) and the
encodings of 30_encoding.md. Then, for every statement with hypotheses, values that meet them together. -/

open Sys2Proof Sys2Proof.Machine

namespace Sys2Proof.Tests

-- One test at a time: each waiting test would hold a thread, and a thread's stack is large.
set_option Elab.async false

/-! ## A small concrete state -/

/-- REF with blocks of one word, so that a block can be written down. -/
def conf : Cfg := { Cfg.ref with blockWords := 1 }

/-- Objects by slot, all other slots 0. -/
def objects (l : List (Nat × Long)) : Fin 64 → Long := fun k => (l.lookup k.val).getD 0#32

/-- `SPAL` of vector C4v, `SOTILE[k]` the block `[k]`, the LUT built, other tables full of ones, maps cleared, engines idle. -/
def mk (c : Cfg) (sobj : Fin 64 → Long) : State where
  spal := .tabulate fun i => BitVec.ofNat 8 (7 * i.val + 3)
  sobj := .tabulate sobj
  sotile := .tabulate fun k => [BitVec.ofNat 32 k.val]
  lut := .tabulate fun b => lutword (BitVec.ofFin b)
  lutv := true
  cmap := .tabulate fun _ => 0#4
  pcnt := 0#4
  tct := .tabulate fun _ => 0xFFFF#16
  topal := .tabulate fun _ => .tabulate fun _ => 0xFFFF#16
  tstage := .tabulate fun _ => [0xFFFFFFFF#32]
  toam := .tabulate fun _ => .ofBits 0x1FFFFFFFFFFF#45
  mapa := .tabulate fun _ => 0x0000#16
  mapb := .tabulate fun _ => 0x03FF#16
  frameEngine := .idle
  pfEngine := .idle
  cfg := c
  inputs := []
  pfIssued := false
  tick := 1

/-- No live object. -/
def empty : State := mk conf (objects [])

/-- What an operation answers. -/
def gives (o : Host.Outcome State Fault Refusal) (p : State → Bool) : Bool :=
  match o with
  | .next t => p t
  | .fault _ => false
  | .refused _ => false

/-- The first four entries of a palette slot. -/
def four (t : State) (d : Fin 16) : List Word := [0, 1, 2, 3].map fun i => (t.topal.read d).read i

/-! ## Well-formedness: an ill-formed term for each check -/

theorem test_pfwrite_address_of_17_bits_refused : (Asm.pfwrite 0x10000 0).wf = false := by decide

theorem test_pfwrite_value_of_17_bits_refused : (Asm.pfwrite 0 0x10000).wf = false := by decide

theorem test_pfcell_index_1024_refused : (Asm.pfcell 1024 0 0).wf = false := by decide

theorem test_pfcell_tile_512_refused : (Asm.pfcell 0 512 0).wf = false := by decide

theorem test_pfcell_group_64_refused : (Asm.pfcell 0 0 64).wf = false := by decide

theorem test_ill_formed_line_is_not_assembled : assemble (.pfcell 0 512 0) = none := by decide

theorem test_cfg_empty_band_refused : { Cfg.ref with objYHi := 0x07#8 }.valid = false := by decide

theorem test_cfg_empty_block_refused : { Cfg.ref with blockWords := 0 }.valid = false := by decide

theorem test_cfg_logo_threshold_513_refused : { Cfg.ref with pfLogoT := 513#10 }.valid = false := by decide

theorem test_cfg_ref_accepted : Cfg.ref.valid = true ∧ Cfg.ref2.valid = true := by decide

theorem test_short_block_refused : conf.blockOk [] = false := by decide

theorem test_short_block_is_ill_formed_memory :
    Memory.wf { empty with sotile := empty.sotile.write 255 [] } = false := by decide +kernel

theorem test_host_write_of_a_short_block_refused : hostMove (.writeSotile 0 []) empty = .refused .notABlock := by rfl

/-! ## Decoding: words written out bit by bit from 30_encoding.md rules R80, R81: op, addr, data -/

theorem test_decode_lutinit : decode 0b000_0000000000000000_0000000000000000#35 = .ok .lutinit := by decide +kernel

theorem test_decode_palconv_operand_bits_ignored :
    decode 0b001_1111111111111111_1111111111111111#35 = .ok .palconv := by decide +kernel

theorem test_decode_objconv : decode 0b010_0000000000000000_0000000000000000#35 = .ok .objconv := by decide +kernel

theorem test_decode_pfwrite :
    decode 0b011_0000011111111110_1011111101111111#35 = .ok (.pfwrite 0x07FE#16 0xBF7F#16) := by decide +kernel

theorem test_decode_frame : decode 0b100_0000000000000000_0000000000000000#35 = .ok .frame := by decide +kernel

theorem test_decode_reserved :
    decode 0b101_0000000000000000_0000000000000000#35 = .error (.reservedOp 5#3) ∧
    decode 0b110_0000000000000000_0000000000000000#35 = .error (.reservedOp 6#3) ∧
    decode 0b111_1111111111111111_1111111111111111#35 = .error (.reservedOp 7#3) := by decide +kernel

/-- Program P3, command 1: the encoding the spec prints. -/
theorem test_encode_pfwrite : encode (.pfwrite 0x0002#16 0x0311#16) = 0x300020311#35 := by decide +kernel

/-- The table's numbering is the word's own; bits above the port's 35 lines are not there. -/
theorem test_table_word :
    decodeTableWord 40 0x300000905 = some (.pfwrite 0x0000#16 0x0905#16) ∧
    decodeTableWord 40 0x500000000 = none ∧ decodeTableWord 40 0xF800000000 = some .lutinit := by decide +kernel

/-- `PFCELL 33, 0x17F, 0x3F` is vector F13 without the ignored bit 14. -/
theorem test_pfcell : assemble (.pfcell 33 0x17F 0x3F) = some 0x30042BF7F#35 := by decide +kernel

/-! ## Operations -/

/-- Vectors L6 (blue 1 is 10), L9. -/
theorem test_lutinit_words :
    gives (exec .lutinit { empty with lut := .tabulate fun _ => 0#16, lutv := false }) (fun t =>
      t.lutv && t.lut.read 0x01 == 0x2800#16 && t.lut.read 0x92 == 0x5652#16 && t.lut.read 0xFF == 0x7FFF#16) = true := by
  decide +kernel

/-- Vector C4v. -/
theorem test_palconv_c4v :
    gives (exec .palconv empty) (fun t =>
      ([0, 1, 2, 3, 4, 5, 6, 7].map t.tct.read) ==
        [0x7C00#16, 0x5520#16, 0x2A40#16, 0x0360#16, 0x7FE0#16, 0x5484#16, 0x29A4#16, 0x02C4#16]) = true := by
  decide +kernel

/-- Vectors O2 and O1: liveness at its boundaries, bit 29, one palette published. -/
theorem test_objconv_o2 :
    gives (exec .objconv (mk conf (objects [(16, 0x05001040#32), (17, 0x052A1007#32), (18, 0x052A1008#32),
      (19, 0x052A10E7#32), (20, 0x052A10E8#32), (21, 0x252A1040#32)]))) (fun t =>
      ([0, 1, 2, 3, 4, 5, 47].map fun k => (t.toam.read k).pack) ==
        [0#48, 0#48, 0x8102003800F8#48, 0x810300380019#48, 0#48, 0x8105003800C0#48, 0#48] &&
      ([0, 1, 2, 3, 4, 5].map t.tstage.read) ==
        [[0xFFFFFFFF#32], [0xFFFFFFFF#32], [0x2A#32], [0x2A#32], [0xFFFFFFFF#32], [0x2A#32]] &&
      four t 1 == [0x7DB2#16, 0x56D2#16, 0x2BF2#16, 0x0096#16] &&
      four t 2 == [0xFFFF#16, 0xFFFF#16, 0xFFFF#16, 0xFFFF#16]) = true := by
  decide +kernel

/-- The objects of vector O4. -/
def o4 : Fin 64 → Long :=
  objects ((List.range 16).map (fun k =>
      (16 + k, BitVec.ofNat 32 (k * 0x1000000 + (0x40 + k) * 0x10000 + 8 * k * 0x100 + 0x50))) ++
    [(32, 0x0F60FFE7#32), (33, 0x00610008#32), (34, 0x1F628080#32)])

/-- Vector O4: exhaustion, reuse after exhaustion. -/
theorem test_objconv_o4 :
    gives (exec .objconv (mk conf o4)) (fun t =>
      ([14, 15, 16, 17, 18].map fun k => (t.toam.read k).pack) ==
        [0x8F0E009800B0#48, 0x800F00A000B0#48, 0x801001270019#48, 0x8111002800F8#48, 0x801200A80080#48] &&
      four t 15 == [0x7D32#16, 0x5652#16, 0x2B72#16, 0x0016#16] &&
      four t 0 == [0xFFFF#16, 0xFFFF#16, 0xFFFF#16, 0xFFFF#16] && t.tstage.read 18 == [0x62#32]) = true := by
  decide +kernel

/-- Vector F6: all ones, column rotation wraps, map B. -/
theorem test_pfwrite_f6 :
    gives (exec (.pfwrite 0x07FE#16 0xFFFF#16) { empty with mapa := .tabulate fun _ => 1#16 }) (fun t =>
      t.mapa.read 0x844 == 0x0000#16 && t.mapb.read 0x844 == 0xF0FF#16 && t.mapa.read 0x845 == 1#16) = true := by
  decide +kernel

/-- Vector G12 (REF2): row rotation by -1; a quadrupled tile that overflows into map B. -/
theorem test_pfwrite_g12 :
    gives (exec (.pfwrite 0x0002#16 0x8310#16) { empty with cfg := Cfg.ref2 }) (fun t =>
      t.mapa.read 0x084 == 0x0000#16 && t.mapb.read 0x084 == 0x0043#16 && t.mapb.read 0x085 == 0x03FF#16) = true := by
  decide +kernel

/-- The objects of vector O3. -/
def o3 : Fin 64 → Long := objects [(16, 0x03111020#32), (20, 0x07222030#32), (63, 0xC3333040#32)]

/-- Program P2: vector O3 by FRAME. -/
theorem test_frame_p2 :
    gives (exec .frame (mk conf o3)) (fun t =>
      t.tct.read 7 == 0x02C4#16 && (t.toam.read 0).pack == 0x8100003800E0#48 &&
      (t.toam.read 4).pack == 0x8204004800D0#48 && (t.toam.read 47).pack == 0xE12F005800C0#48 &&
      four t 2 == [0x7C9B#16, 0x55BB#16, 0x2ADB#16, 0x03FB#16] && t.tstage.read 47 == [0x33#32]) = true := by
  decide +kernel

/-- Vector O5: a negative y wraps in 16 bits. -/
theorem test_object_y_wraps :
    (liveEntry { conf with objYBias := 0x0010#16, objInsetY := 0#16 } 0x052A1040#32 0 1#4).pack = 0x81000038FFD0#48 := by
  decide +kernel

/-- The threshold extremes of 95_test_vectors.md section 2.4. -/
theorem test_logo_threshold_extremes :
    pfDestTile { Cfg.ref with pfLogoT := 0#10 } 0x0305#16 = 5 ∧
    pfDestTile { Cfg.ref with pfLogoT := 512#10 } 0xFFFF#16 = 2047 ∧
    pfWordB { Cfg.ref with pfLogoT := 512#10 } 0xFFFF#16 = 0xF3FF#16 := by decide +kernel

/-! ## Steps -/

/-- Each operation runs as the first after reset. -/
theorem test_first_step_after_reset (w : Nat) (h : w = 0x000000000 ∨ w = 0x100000000 ∨ w = 0x200000000 ∨
    w = 0x300000905 ∨ w = 0x400000000) : ∃ i t, decodeTableWord 40 w = some i ∧
      step (State.reset.withFetchWord 40 w) = .next t ∧ t.inputs = [] := by
  rcases h with h | h | h | h | h <;> subst h
  · exact ⟨.lutinit, lutinit { State.reset with inputs := [] }, by decide, rfl, rfl⟩
  · exact ⟨.palconv, palconv { State.reset with inputs := [] }, by decide, rfl, by rw [palconv_frame]⟩
  · exact ⟨.objconv, objconv { State.reset with inputs := [] }, by decide, rfl, by rw [objconv_frame]⟩
  · exact ⟨.pfwrite 0 0x0905#16, pfwrite 0 0x0905#16 { State.reset with inputs := [], pfIssued := true },
      by decide, rfl, rfl⟩
  · exact ⟨.frame, objconv (palconv { State.reset with inputs := [] }), by decide, rfl,
      by rw [objconv_frame, palconv_frame]⟩

/-- Program P4's overlap: a PFWRITE is accepted while FRAME is in progress, a second frame operation is not. -/
theorem test_playfield_write_inside_a_frame :
    gives (hostMove (.issue 0x307FEFFFF#35) (beginOp .frame empty)) (fun t =>
      decide (t.pfEngine = .accepted 0x07FE#16 0xFFFF#16)) = true ∧
    gives (hostMove (.command 0x100000000#35) (beginOp .frame empty)) (fun _ => true) = false := by
  decide +kernel

/-- R62: a host write during PALCONV replaces the element, and what it held (`SPAL[3] = 0x18`, vector C4v) is remembered. -/
theorem test_host_write_during_palconv :
    gives (hostMove (.writeSpal 3 0xFF#8) (beginOp .palconv empty)) (fun t =>
      t.spal.read 3 == 0xFF#8 && decide (t.frameEngine = .palconv 0 [.spal 3 0x18#8])) = true := by
  decide +kernel

/-! ## Witnesses: values that meet the hypotheses of a statement together -/

theorem witness_DecodeAndEncodeAgree :
    (Instr.pfwrite 0xFFFF#16 0xFFFF#16).wf = true ∧ decode 0x3FFFFFFFF#35 = .ok (.pfwrite 0xFFFF#16 0xFFFF#16) := by
  decide +kernel

theorem witness_DecodeIsTotalAndRefusesReserved :
    (cmdOp 0x400000000#35).toNat ≤ 4 ∧ 5 ≤ (cmdOp 0x500000000#35).toNat := by decide +kernel

theorem witness_OperandBitsIgnored :
    cmdOp 0x100000000#35 = cmdOp 0x1FFFFFFFF#35 ∧ cmdOp 0x100000000#35 ≠ 3#3 := by decide +kernel

theorem witness_PfcellInvertsOperandDecoding : (1023 : Nat) < 1024 ∧ (511 : Nat) < 512 ∧ (63 : Nat) < 64 := by decide

theorem witness_LutinitAgainChangesNothing : ∃ t, exec .lutinit empty = .next t := ⟨_, rfl⟩

theorem witness_PalconvConvertsEveryEntry : empty.lutv = true := rfl

theorem witness_PalconvWithoutLutCompletes : { empty with lutv := false }.lutv = false := rfl

theorem witness_BootThenPalconvGivesColourWords : ∃ t u, exec .lutinit empty = .next t ∧ exec .palconv t = .next u :=
  ⟨_, _, rfl, rfl⟩

theorem witness_DeadSlotIsDisabled :
    live empty.cfg (empty.sobj.read ⟨(47 : Fin 48).val + 16, by omega⟩) = false := by decide +kernel

theorem witness_LiveSlotIsConverted :
    0xC3333040#32 = (mk conf o3).sobj.read ⟨(47 : Fin 48).val + 16, by omega⟩ ∧ live (mk conf o3).cfg 0xC3333040#32 = true := by
  decide +kernel

theorem witness_PalettesFirstComeFirstServed :
    liveSlot (mk conf o4) 15 = true ∧ slotByRank (livePalettes (mk conf o4)) (slotPal (mk conf o4) 15) = 0 ∧
    liveSlot (mk conf o4) 17 = true ∧ slotByRank (livePalettes (mk conf o4)) (slotPal (mk conf o4) 17) = 1 := by
  decide +kernel

theorem witness_AssignedPalettesArePublished :
    (mk conf o3).lutv = true ∧ liveSlot (mk conf o3) 47 = true ∧
    gives (exec .objconv (mk conf o3)) (fun t => decide ((t.toam.read 47).pal ≠ 0#4) &&
      decide (∀ k, liveSlot (mk conf o3) k = true → (t.toam.read k).pal ≠ 3#4)) = true := by
  decide +kernel

theorem witness_SharedPaletteSharedSlot :
    (∃ t, exec .objconv (mk conf o3) = .next t) ∧ liveSlot (mk conf o3) 0 = true ∧ liveSlot (mk conf o3) 47 = true ∧
    slotPal (mk conf o3) 0 = slotPal (mk conf o3) 47 :=
  ⟨⟨_, rfl⟩, by decide +kernel⟩

theorem witness_PaletteSlotsInUseAreAnInterval : ∃ t, exec .objconv (mk conf o4) = .next t := ⟨_, rfl⟩

/-- Slot 0 and bit 29 of slot 16 differ. -/
theorem witness_UnusedObjectBitsHaveNoEffect :
    let sobj' := (empty.sobj.write 0 0xFFFFFFFF#32).write 16 (BitVec.twoPow 32 29)
    sobj' ≠ empty.sobj ∧
    ∀ k : Fin 64, 16 ≤ k.val → ∀ j : Nat, j ≠ 29 → (sobj'.read k).getLsbD j = (empty.sobj.read k).getLsbD j := by
  refine ⟨by decide +kernel, ?_⟩
  intro k hk j hj
  have h0 : empty.sobj.read k = 0#32 := by
    simp only [empty, mk, Table.read_tabulate, objects]
    rfl
  have hk0 : (0 : Fin 64) ≠ k := by intro e; subst e; simp at hk
  rw [Table.read_write, Table.read_write_ne _ _ hk0, h0]
  split
  · simp only [BitVec.getLsbD_twoPow, BitVec.getLsbD_zero]
    simp [Ne.symm hj]
  · rfl

theorem objconv_twice (s : State) : ∃ t u, exec .objconv s = .next t ∧ exec .objconv t = .next u := ⟨_, _, rfl, rfl⟩

theorem witness_ObjconvAgainChangesNoOutput :
    (mk conf o4).lutv = true ∧ ∃ t u, exec .objconv (mk conf o4) = .next t ∧ exec .objconv t = .next u :=
  ⟨rfl, objconv_twice _⟩

theorem witness_ObjconvWithoutLutDiffersInColoursOnly :
    { mk conf o3 with lutv := false }.lutv = false ∧ liveSlot { mk conf o3 with lutv := false } 47 = true ∧
    gives (exec .objconv { mk conf o3 with lutv := false }) (fun t => decide ((t.toam.read 47).pal ≠ 0#4) &&
      decide (∀ k, liveSlot { mk conf o3 with lutv := false } k = true → (t.toam.read k).pal ≠ 3#4)) = true :=
  ⟨rfl, by decide +kernel⟩

theorem witness_DestinationTileFitsTwoMaps :
    Cfg.ref.pfLogoT.toNat ≤ 512 ∧ (pfTile9 0x00FF#16).toNat < Cfg.ref.pfLogoT.toNat ∧
    Cfg.ref.pfLogoT.toNat ≤ (pfTile9 0x8000#16).toNat ∧ { Cfg.ref with pfLogoT := 512#10 }.pfLogoT.toNat ≤ 512 := by
  decide +kernel

theorem witness_PfwriteIsIdempotent : ∃ t, exec (.pfwrite 0xFFFF#16 0xFFFF#16) empty = .next t := ⟨_, rfl⟩

theorem witness_PfwriteIgnoredBitsHaveNoEffect :
    (∀ j : Nat, 1 ≤ j → j ≤ 10 → (0x07FE#16).getLsbD j = (0xFFFF#16).getLsbD j) ∧
    (∀ j : Nat, j ≠ 14 → (0x0905#16).getLsbD j = (0x4905#16).getLsbD j) := by
  constructor
  · intro j h1 h2
    interval_cases j <;> decide
  · intro j hj
    by_cases h : j < 16
    · interval_cases j <;> first | decide | exact absurd rfl hj
    · rw [BitVec.getLsbD_of_ge _ _ (by omega), BitVec.getLsbD_of_ge _ _ (by omega)]

/-- The two boundary tiles: the last in map A, the first in map B; and a cell that no write targets. -/
theorem witness_LastPfwriteDecidesTheCell :
    empty.cfg = conf ∧
    (∀ w ∈ [((0x0042#16, 0xBF7F#16) : Word × Word)], pfDest conf w.1 ≠ pfDest conf 0x0002#16) ∧
    pfDestTile conf 0x3FFF#16 = 1023 ∧ pfDestTile conf 0x8000#16 = 1024 ∧
    (∀ w ∈ [((0x0002#16, 0x0311#16) : Word × Word), (0x0002#16, 0x8000#16), (0x0042#16, 0xBF7F#16)],
      pfDest conf w.1 ≠ ⟨0, by omega⟩) := by
  refine ⟨rfl, ?_, by decide +kernel, by decide +kernel, ?_⟩ <;> intro w hw <;>
    simp only [List.mem_cons, List.not_mem_nil, or_false] at hw
  · subst hw
    decide +kernel
  · rcases hw with rfl | rfl | rfl <;> decide +kernel

theorem witness_FrameOrderIsNotObservable : (mk conf o4).lutv = true := rfl

theorem witness_EngineTurnsEqualTheOperation : empty.frameEngine = .idle ∧ empty.pfEngine = .idle := ⟨rfl, rfl⟩

theorem witness_PfwriteCommutesWithFrameOperations :
    engineOf .lutinit = .frame ∧ engineOf .palconv = .frame ∧ engineOf .objconv = .frame ∧ engineOf .frame = .frame := by
  decide

theorem witness_ReaderSeesOldOrNewElements :
    engineOf .frame = .frame ∧ empty.frameEngine = .idle ∧ (∃ t, exec .frame empty = .next t) ∧ 0 ≤ turnsOf .frame ∧
    304 ≤ turnsOf .frame :=
  ⟨rfl, rfl, ⟨_, rfl⟩, by decide, by decide⟩

/-- A cell beside the one written. -/
theorem witness_PfwriteIsSeenHalfDone : empty.pfEngine = .idle ∧ (0 : Fin 4096) ≠ pfDest empty.cfg 0#16 :=
  ⟨rfl, by decide +kernel⟩

/-- A PFWRITE presented in the middle of FRAME. -/
theorem witness_StepRunsThePresentedCommand :
    let s := { beginOp .frame empty with inputs := [.command 0x300000905#35] }
    s.inputs = .command 0x300000905#35 :: [] ∧ decode 0x300000905#35 = .ok (.pfwrite 0#16 0x0905#16) ∧
    s.busyFor (.pfwrite 0#16 0x0905#16) = none :=
  ⟨rfl, by decide +kernel, rfl⟩

/-- Each clause: an issue, a turn of each engine, and no move pending with a busy and with an idle playfield engine. -/
theorem witness_StepStartsAndAdvancesOperations :
    (let s := { empty with inputs := [.issue 0x400000000#35] }
     s.inputs = .issue 0x400000000#35 :: [] ∧ decode 0x400000000#35 = .ok .frame ∧ s.busyFor .frame = none) ∧
    { beginOp .frame empty with inputs := [.workFrame] }.inputs = .workFrame :: [] ∧
    { beginOp .frame empty with inputs := [.workPlayfield] }.inputs = .workPlayfield :: [] ∧
    (let s := beginOp (.pfwrite 0#16 0#16) empty
     s.inputs = [] ∧ s.pfEngine ≠ .idle) ∧
    ((beginOp .frame empty).inputs = [] ∧ (beginOp .frame empty).pfEngine = .idle) :=
  ⟨⟨rfl, by decide +kernel, rfl⟩, rfl, rfl, ⟨rfl, nofun⟩, rfl, rfl⟩

theorem witness_ReservedCommandChangesNothing :
    { empty with inputs := [.command 0x500000000#35] }.inputs = .command 0x500000000#35 :: [] ∧
    5 ≤ (cmdOp 0x500000000#35).toNat :=
  ⟨rfl, by decide +kernel⟩

/-- Each clause: frame operations for a busy and an idle frame engine, PFWRITE for a busy and an idle playfield engine. -/
theorem witness_BusyEngineTakesNoCommand :
    (let s := { empty with inputs := [.command 0x400000000#35], frameEngine := .lutinit 255 }
     s.inputs = .command 0x400000000#35 :: [] ∧ decode 0x400000000#35 = .ok .frame ∧ engineOf .frame = .frame ∧
     s.frameEngine ≠ .idle) ∧
    (let s := { empty with inputs := [.command 0x400000000#35], pfEngine := .accepted 0#16 0#16 }
     s.inputs = .command 0x400000000#35 :: [] ∧ s.frameEngine = .idle) ∧
    (let s := { empty with inputs := [.command 0x300000000#35], pfEngine := .halfway 0#16 0#16 }
     s.inputs = .command 0x300000000#35 :: [] ∧ decode 0x300000000#35 = .ok (.pfwrite 0#16 0#16) ∧
     engineOf (.pfwrite 0#16 0#16) = .playfield ∧ s.pfEngine ≠ .idle) ∧
    (let s := { empty with inputs := [.command 0x300000000#35], frameEngine := .frameObj 47 [] }
     s.inputs = .command 0x300000000#35 :: [] ∧ s.pfEngine = .idle) :=
  ⟨⟨rfl, by decide +kernel, rfl, nofun⟩, ⟨rfl, rfl⟩, ⟨rfl, by decide +kernel, rfl, nofun⟩, rfl, rfl⟩

/-- Each clause: between operations, during LUTINIT; each kind of write. -/
theorem witness_HostWritesInputsBetweenOperations :
    (empty.frameEngine = .idle ∧
      { empty with inputs := [.writeSpal 255 0xFF#8] }.inputs = .writeSpal 255 0xFF#8 :: [] ∧
      { empty with inputs := [.writeSobj 63 0#32] }.inputs = .writeSobj 63 0#32 :: [] ∧
      { empty with inputs := [.writeSotile 255 [1#32]] }.inputs = .writeSotile 255 [1#32] :: [] ∧
      [1#32].length = empty.cfg.blockWords) ∧
    (∃ j, (beginOp .lutinit empty).frameEngine = .lutinit j) :=
  ⟨⟨rfl, rfl, rfl, rfl, rfl⟩, 0, rfl⟩

/-- In the middle of PALCONV; each kind of write. -/
theorem witness_HostWriteDuringAnOperationIsRemembered :
    (beginOp .palconv empty).frameEngine ≠ .idle ∧ (∀ j, (beginOp .palconv empty).frameEngine ≠ .lutinit j) ∧
    { beginOp .palconv empty with inputs := [.writeSpal 0 1#8] }.inputs = .writeSpal 0 1#8 :: [] ∧
    { beginOp .palconv empty with inputs := [.writeSobj 16 1#32] }.inputs = .writeSobj 16 1#32 :: [] ∧
    { beginOp .palconv empty with inputs := [.writeSotile 0 [1#32]] }.inputs = .writeSotile 0 [1#32] :: [] ∧
    [1#32].length = (beginOp .palconv empty).cfg.blockWords :=
  ⟨nofun, nofun, rfl, rfl, rfl, rfl⟩

/-- The last entry of PALCONV, and the first of FRAME; an element overwritten twice. -/
theorem witness_PalconvReadsOldOrNewInputs :
    { empty with frameEngine := .palconv 255 [.spal 255 0x92#8, .spal 255 0xFF#8] }.frameEngine =
      .palconv 255 [.spal 255 0x92#8, .spal 255 0xFF#8] ∧
    { empty with frameEngine := .framePal 0 [] }.frameEngine = .framePal 0 [] ∧ (1 : Fin 256) ≠ 0 :=
  ⟨rfl, rfl, by decide⟩

/-- A dead slot, and a live one whose palette has no slot yet while its block has been overwritten. -/
theorem witness_ObjconvReadsOldOrNewInputs :
    ({ empty with frameEngine := .objconv 0 [] }.frameEngine = .objconv 0 [] ∧
      live empty.cfg (empty.sobj.read 16) = false) ∧
    (let s := { mk conf o3 with frameEngine := .frameObj 47 [.sotile 0x33 [0#32]] }
     s.frameEngine = .frameObj 47 [.sotile 0x33 [0#32]] ∧ live s.cfg (s.sobj.read 63) = true ∧
     s.cmap.read (objPal (s.sobj.read 63)).toFin = 0#4 ∧ s.pcnt < 15#4) :=
  ⟨⟨rfl, by decide +kernel⟩, rfl, by decide +kernel⟩

theorem witness_BootClearsBothMaps :
    (let s := { empty with inputs := [.clearMaps], pfIssued := true }
     s.inputs = .clearMaps :: [] ∧ s.pfIssued = true) ∧
    (let s := { empty with inputs := [.clearMaps] }
     s.inputs = .clearMaps :: [] ∧ s.pfIssued = false) :=
  ⟨⟨rfl, rfl⟩, rfl, rfl⟩

/-- A reset in the middle of an operation. -/
theorem witness_ResetEventIdlesTheEngines :
    { beginOp .frame empty with inputs := [.reset, .command 0#35] }.inputs = .reset :: [.command 0#35] := rfl

theorem witness_PowerOnWaitsForACommand : Quiescent empty := ⟨rfl, rfl, rfl⟩

/-- The longest way: FRAME and a PFWRITE both at their beginning. -/
theorem witness_OperationsInProgressComplete :
    (beginOp (.pfwrite 0#16 0#16) (beginOp .frame empty)).inputs = [] := rfl

/-- A state in the middle of OBJCONV, with a block overwritten since its issue. -/
theorem witness_EveryStepKeepsTheInvariant :
    let s := { mk conf o4 with frameEngine := .objconv 0 [.sotile 5 [9#32]] }
    Inv s ∧ ∃ t, step s = .next t := by
  refine ⟨⟨?_, ?_, ?_, ?_, ?_⟩, ?_⟩
  · intro _ b
    simp only [mk, Table.read_tabulate]
  · intro i h
    cases h
  · intro _
    refine ⟨by intro p; simp [mk], ?_⟩
    intro d h1 h2
    exfalso
    simp [mk] at h2
    omega
  · rw [memory_wf_iff]
    refine ⟨?_, ?_, ?_⟩ <;> intro k <;> simp [mk, conf, FrameEngine.overwritten, Cfg.ref]
  · decide +kernel
  · exact ⟨_, rfl⟩

theorem witness_EveryStepKeepsTheMapsPartitioned :
    let s := { empty with pfEngine := .halfway 0#16 0x0905#16 }
    MapsPartitioned s ∧ resetNext s = false ∧ ∃ t, step s = .next t := by
  refine ⟨⟨?_, ?_⟩, rfl, _, rfl⟩
  · intro addr data _
    right
    simp only [empty, mk, Table.read_tabulate]
    rfl
  · intro d
    right
    left
    simp only [empty, mk, Table.read_tabulate]
    rfl

/-- LUTINIT again, in the middle. -/
theorem witness_BuiltLutIsImmutable :
    let s := { empty with frameEngine := .lutinit 128 }
    LutBuilt s ∧ s.lutv = true ∧ resetNext s = false ∧ ∃ t, step s = .next t := by
  refine ⟨?_, rfl, rfl, _, rfl⟩
  intro _ b
  simp only [empty, mk, Table.read_tabulate]

theorem witness_ConfigurationNeverChanges : ∃ t, step empty = .next t := ⟨_, rfl⟩

theorem witness_OperationsWriteOnlyWhatTheyOwn :
    engineOf .frame = .frame ∧ engineOf (.pfwrite 0#16 0#16) = .playfield ∧ (∃ t, exec .frame empty = .next t) ∧
    ∃ t, exec (.pfwrite 0#16 0#16) empty = .next t :=
  ⟨rfl, rfl, ⟨_, rfl⟩, _, rfl⟩

end Sys2Proof.Tests
end

section
/-! PROOF. PALCONV (spec/41_palette.md). -/

namespace Sys2Proof.Machine

/-- With the LUT built a colour byte is looked up in it: no free value is drawn (rule R130). -/
theorem colourWord_of_lutv {s : State} (h : s.lutv = true) (b : Byte) (site : Site) :
    s.colourWord b site = s.lut.read b.toFin := if_pos h

/-- With the LUT built PALCONV draws no free value, so its end leaves the counter where it stands. -/
theorem palEnd_of_lutv {s : State} (h : s.lutv = true) : palEnd s = s := if_pos h

/-- With the LUT built PALCONV replaces the table TCT and changes nothing else (rule R130). -/
theorem palconv_of_lutv {s : State} (h : s.lutv = true) : palconv s = { s with tct := .tabulate (palWord s) } :=
  palEnd_of_lutv h

/-- Settles O10: with LUTV = 1 each entry is a lookup in the LUT, and the counter of free values stays. -/
theorem palconvConvertsEveryEntry : Obligations.PalconvConvertsEveryEntry := by
  intro s hbuilt
  refine ⟨{ s with tct := .tabulate (palWord s) }, congrArg _ (palconv_of_lutv hbuilt), ?_, rfl⟩
  intro i
  calc (Table.tabulate (palWord s)).read i
    _ = s.colourWord (s.spal.read i) (.tct i) := Table.read_tabulate _ i
    _ = s.lut.read (s.spal.read i).toFin := colourWord_of_lutv hbuilt _ _

end Sys2Proof.Machine
end

section
/-! PROOF. No operation can fail (spec/60_exceptions.md). -/

namespace Sys2Proof.Machine

/-- Each operation's meaning is a next state, whatever its operands and the state (rule R230). -/
theorem exec_completes (i : Instr) (s : State) : ∃ t, exec i s = .next t := by
  cases i with
  | lutinit => exact ⟨lutinit s, rfl⟩
  | palconv => exact ⟨palconv s, rfl⟩
  | objconv => exact ⟨objconv s, rfl⟩
  | pfwrite addr data => exact ⟨pfwrite addr data s, rfl⟩
  | frame => exact ⟨objconv (palconv s), rfl⟩

/-- The block has no cause codes and no error record, so there is nothing a fault could carry (rule R230). -/
theorem fault_isEmpty : IsEmpty Fault := ⟨nofun⟩

/-- Settles O40: every arm of `exec` answers a next state, and there is no fault for a step to answer. -/
theorem nothingRaises : Obligations.NothingRaises :=
  ⟨exec_completes, fun _ f => fault_isEmpty.elim f⟩

end Sys2Proof.Machine
end

section
/-! PROOF. Decoding, encoding and the assembler (spec/30_encoding.md). -/

namespace Sys2Proof

/-- The five operation codes are 0 to 4 (rule R81). -/
theorem Instr.op_le (i : Instr) : i.op.toNat ≤ 4 := by
  cases i <;> simp [Instr.op]

/-- The decoder reads back what the encoder wrote, at every operand (rules R80, R100). -/
theorem decode_encode (i : Instr) : decode (encode i) = .ok i := by
  cases i <;> simp [decode, Instr.op, Instr.addrField, Instr.dataField]

/-- What the decoder answers: the operation with the word's code, and with its operands when it is a PFWRITE, or the refusal of
a reserved code (rules R84, R100). -/
theorem decode_cases (w : Cmd) :
    (∃ i, decode w = .ok i ∧ cmdOp w = i.op ∧ ∀ addr data, i = .pfwrite addr data → addr = cmdAddr w ∧ data = cmdData w) ∨
    (5 ≤ (cmdOp w).toNat ∧ decode w = .error (.reservedOp (cmdOp w))) := by
  have code : ∀ {i : Instr}, (cmdOp w).toNat = i.op.toNat → cmdOp w = i.op := BitVec.eq_of_toNat_eq
  unfold decode
  split
  case h_1 h => exact .inl ⟨_, rfl, code h, nofun⟩
  case h_2 h => exact .inl ⟨_, rfl, code h, nofun⟩
  case h_3 h => exact .inl ⟨_, rfl, code h, nofun⟩
  case h_4 h =>
    refine .inl ⟨_, rfl, code h, fun addr data e => ?_⟩
    cases e
    exact ⟨rfl, rfl⟩
  case h_5 h => exact .inl ⟨_, rfl, code h, nofun⟩
  case h_6 h0 h1 h2 h3 h4 => exact .inr ⟨by simp only [imp_false] at h0 h1 h2 h3 h4; omega, rfl⟩

/-- A word that decodes to a PFWRITE is its encoding: both operands fill their fields (rules R80, R85). -/
theorem encode_pfwrite_fields {w : Cmd} {addr data : Word} (hop : cmdOp w = 3#3) (ha : addr = cmdAddr w)
    (hd : data = cmdData w) : encode (.pfwrite addr data) = w := by
  calc encode (.pfwrite addr data)
    _ = cmdOp w ++ cmdAddr w ++ cmdData w := by rw [hop, ← ha, ← hd]; rfl
    _ = w := cmd_fields w

/-- Settles O1: `decode_encode`, and the fields `decode_cases` gives of a word put together again. -/
theorem decodeAndEncodeAgree : Obligations.DecodeAndEncodeAgree := by
  refine ⟨fun i _ => decode_encode i, fun w i h => ?_⟩
  rcases decode_cases w with ⟨j, hj, hop, hfields⟩ | ⟨-, herr⟩
  · obtain rfl : j = i := Except.ok.inj (hj.symm.trans h)
    refine ⟨hop, fun addr data e => ?_⟩
    obtain ⟨ha, hd⟩ := hfields addr data e
    subst e
    exact encode_pfwrite_fields hop ha hd
  · rw [herr] at h
    cases h

/-- A reserved code is refused by name (rule R84). -/
theorem decode_reserved {w : Cmd} (h : 5 ≤ (cmdOp w).toNat) : decode w = .error (.reservedOp (cmdOp w)) := by
  rcases decode_cases w with ⟨i, -, hop, -⟩ | ⟨-, herr⟩
  · have := i.op_le
    rw [← hop] at this
    omega
  · exact herr

/-- Settles O2: the two cases of `decode_cases` are told apart by the code. -/
theorem decodeIsTotalAndRefusesReserved : Obligations.DecodeIsTotalAndRefusesReserved := by
  refine fun w => ⟨fun hle => ?_, decode_reserved⟩
  rcases decode_cases w with ⟨i, hi, hop, -⟩ | ⟨hge, -⟩
  · exact ⟨i, hi, hop.symm⟩
  · omega

/-- Settles O3: only the arm of code 3 reads more of the word than its code. -/
theorem operandBitsIgnored : Obligations.OperandBitsIgnored := by
  intro w w' hop hne
  have h3 : (cmdOp w').toNat ≠ 3 := fun e => hne (hop.trans (BitVec.eq_of_toNat_eq e))
  unfold decode
  rw [hop]
  split
  case h_4 e => exact absurd e h3
  all_goals rfl

/-- Settles O4: seven words, evaluated. -/
theorem tabledWordsDecode : Obligations.TabledWordsDecode := by
  unfold Obligations.TabledWordsDecode
  decide

end Sys2Proof

namespace Sys2Proof.Machine

/-- The value operand of `PFCELL`, its three disjoint fields added up (30_encoding.md rule R99). -/
theorem pfcell_value (tile9 : Nat) {grp : Nat} (hg : grp < 64) :
    (((tile9 >>> 8) <<< 15) ||| (grp <<< 8) ||| (tile9 &&& 0xFF)) =
      32768 * (tile9 / 256) + 256 * grp + tile9 % 256 := by
  have hlow : tile9 &&& 0xFF = tile9 % 256 := Nat.and_two_pow_sub_one_eq_mod tile9 8
  rw [hlow, Nat.or_assoc, ← Nat.shiftLeft_add_eq_or_of_lt (show tile9 % 256 < 2 ^ 8 by omega),
    ← Nat.shiftLeft_add_eq_or_of_lt (show grp <<< 8 + tile9 % 256 < 2 ^ 15 by simp only [Nat.shiftLeft_eq]; omega)]
  simp only [Nat.shiftLeft_eq, Nat.shiftRight_eq_div_pow]
  omega

/-- Settles O5: the line assembles to the encoding of a PFWRITE, whose operand fields are then a computation. -/
theorem pfcellInvertsOperandDecoding : Obligations.PfcellInvertsOperandDecoding := by
  intro idx tile9 grp hidx htile hgrp
  have hwf : (Asm.pfcell idx tile9 grp).wf = true := by simp [Asm.wf, hidx, htile, hgrp]
  refine ⟨_, _, _, if_pos hwf, decode_encode _, ?_, ?_, ?_⟩
  · rw [pfIdx_toNat, BitVec.toNat_ofNat, Nat.shiftLeft_eq]
    omega
  · rw [pfTile9_toNat, BitVec.toNat_ofNat, pfcell_value tile9 hgrp]
    omega
  · rw [pfGrp_toNat, BitVec.toNat_ofNat, pfcell_value tile9 hgrp]
    omega

end Sys2Proof.Machine
end

section
/-! PROOF. Steps, said for every property of states at once: a property kept by each single happening is kept by a step. -/

namespace Sys2Proof.Machine

/-! ## Admission of a command (spec/70_reset_and_hazards.md) -/

/-- A frame operation is admitted exactly when the frame engine is idle (rule R255). -/
theorem busyFor_frame {i : Instr} (h : engineOf i = .frame) (s : State) :
    s.busyFor i = if s.frameEngine = .idle then none else some .frameBusy := by
  simp [State.busyFor, h]

/-- A PFWRITE is admitted exactly when the playfield engine is idle (rule R256). -/
theorem busyFor_playfield {i : Instr} (h : engineOf i = .playfield) (s : State) :
    s.busyFor i = if s.pfEngine = .idle then none else some .playfieldBusy := by
  simp [State.busyFor, h]

theorem frameEngine_idle_of_busyFor {i : Instr} {s : State} (h : engineOf i = .frame) (hb : s.busyFor i = none) :
    s.frameEngine = .idle := by
  simpa [busyFor_frame h] using hb

theorem pfEngine_idle_of_busyFor {i : Instr} {s : State} (h : engineOf i = .playfield) (hb : s.busyFor i = none) :
    s.pfEngine = .idle := by
  simpa [busyFor_playfield h] using hb

/-- Noting a PFWRITE changes that note only (log 3). -/
theorem noteIssue_frame (i : Instr) (s : State) : s.noteIssue i = { s with pfIssued := (s.noteIssue i).pfIssued } := by
  cases i <;> rfl

/-- Noting the issue does not touch what admission asks. -/
theorem busyFor_noteIssue (i j : Instr) (s : State) : (s.noteIssue j).busyFor i = s.busyFor i := by
  rw [noteIssue_frame]
  rfl

/-! ## What a property has to be kept by -/

/-- The property `P` is kept by each single thing that can happen in a step, but for the reset event; an operation runs or
begins only with its engine idle. -/
structure KeptByMoves (P : State → Prop) : Prop where
  setInputs : ∀ {s} ms, P s → P (s.setInputs ms)
  noteIssue : ∀ {s} i, P s → P (s.noteIssue i)
  lutinit : ∀ {s}, P s → s.frameEngine = .idle → P (lutinit s)
  palconv : ∀ {s}, P s → s.frameEngine = .idle → P (palconv s)
  objconv : ∀ {s}, P s → s.frameEngine = .idle → P (objconv s)
  pfwrite : ∀ {s} addr data, P s → s.pfEngine = .idle → P (pfwrite addr data s)
  beginOp : ∀ {s} i, P s → s.busyFor i = none → P (beginOp i s)
  frameWork : ∀ {s}, P s → P (frameWork s)
  pfWork : ∀ {s}, P s → P (pfWork s)
  hostWriteSpal : ∀ {s} i v, P s → P (s.hostWriteSpal i v)
  hostWriteSobj : ∀ {s} k v, P s → P (s.hostWriteSobj k v)
  hostWriteSotile : ∀ {s} k b, s.cfg.blockOk b = true → P s → P (s.hostWriteSotile k b)
  clearMaps : ∀ {s}, P s → P (clearMaps s)

/-- PALCONV does not touch the engines. -/
theorem palconv_frameEngine (s : State) : (palconv s).frameEngine = s.frameEngine := by rw [palconv_frame]

/-- An operation run whole keeps what its parts keep; FRAME's are PALCONV and OBJCONV (44_frame.md rule R220). -/
theorem KeptByMoves.exec {P : State → Prop} (hP : KeptByMoves P) {i : Instr} {s t : State} (h : P s)
    (hb : s.busyFor i = none) (he : exec i s = .next t) : P t := by
  cases i with
  | lutinit => cases he; exact hP.lutinit h (frameEngine_idle_of_busyFor rfl hb)
  | palconv => cases he; exact hP.palconv h (frameEngine_idle_of_busyFor rfl hb)
  | objconv => cases he; exact hP.objconv h (frameEngine_idle_of_busyFor rfl hb)
  | pfwrite addr data => cases he; exact hP.pfwrite addr data h (pfEngine_idle_of_busyFor rfl hb)
  | frame =>
    cases he
    have hidle := frameEngine_idle_of_busyFor rfl hb
    exact hP.objconv (hP.palconv h hidle) ((palconv_frameEngine s).trans hidle)

/-- A move of the host keeps the property. -/
theorem KeptByMoves.hostMove {P : State → Prop} (hP : KeptByMoves P) {m : HostMove} {s t : State}
    (hreset : m = .reset → P (resetEvent s)) (h : P s) (hm : hostMove m s = .next t) : P t := by
  rcases hostMove_cases hm with ⟨-, -, -, -, rfl⟩ | ⟨-, i, -, -, hb, he⟩ | ⟨-, i, -, -, hb, rfl⟩ | ⟨-, rfl⟩ | ⟨-, rfl⟩ |
    ⟨i, v, -, rfl⟩ | ⟨k, v, -, rfl⟩ | ⟨k, b, -, hok, rfl⟩ | ⟨-, -, rfl⟩ | ⟨hr, rfl⟩
  · exact h
  · exact hP.exec (hP.noteIssue i h) ((busyFor_noteIssue i i s).trans hb) he
  · exact hP.beginOp i (hP.noteIssue i h) ((busyFor_noteIssue i i s).trans hb)
  · exact hP.frameWork h
  · exact hP.pfWork h
  · exact hP.hostWriteSpal i v h
  · exact hP.hostWriteSobj k v h
  · exact hP.hostWriteSotile k b hok h
  · exact hP.clearMaps h
  · exact hreset hr

/-- A step keeps the property, if its reset event does where that is what comes next. -/
theorem KeptByMoves.step {P : State → Prop} (hP : KeptByMoves P) {s t : State}
    (hreset : resetNext s = true → ∀ u, P u → P (resetEvent u)) (h : P s) (hs : step s = .next t) : P t := by
  rcases step_cases hs with ⟨-, rfl⟩ | ⟨m, ms, hi, hm⟩
  · unfold goOn
    split
    · exact hP.frameWork h
    · exact hP.pfWork h
  · have h' := hP.setInputs ms h
    refine hP.hostMove (fun hr => hreset ?_ _ h') h' hm
    simp [resetNext, hi, hr]

/-- A step that is not the reset event keeps the property. -/
theorem KeptByMoves.step_of_no_reset {P : State → Prop} (hP : KeptByMoves P) {s t : State} (hr : resetNext s = false)
    (h : P s) (hs : Machine.step s = .next t) : P t :=
  hP.step (fun hr' => absurd (hr.symm.trans hr') nofun) h hs

/-! ## Host writes of input tables: the fields they leave alone -/

/-- The host's write of SPAL changes SPAL, the frame engine's memory of overwritten values and the counter only (R62). -/
theorem hostWriteSpal_frame (s : State) (i : Fin 256) (v : Byte) :
    s.hostWriteSpal i v =
      { s with
        spal := s.spal.write i v
        frameEngine := (s.noteOverwritten (.spal i (s.spal.read i))).frameEngine
        tick := (s.noteOverwritten (.spal i (s.spal.read i))).tick } := by
  simp only [State.hostWriteSpal, State.writeSpal]
  rw [noteOverwritten_frame]

theorem hostWriteSobj_frame (s : State) (k : Fin 64) (v : Long) :
    s.hostWriteSobj k v =
      { s with
        sobj := s.sobj.write k v
        frameEngine := (s.noteOverwritten (.sobj k (s.sobj.read k))).frameEngine
        tick := (s.noteOverwritten (.sobj k (s.sobj.read k))).tick } := by
  simp only [State.hostWriteSobj, State.writeSobj]
  rw [noteOverwritten_frame]

theorem hostWriteSotile_frame (s : State) (k : Fin 256) (b : Block) :
    s.hostWriteSotile k b =
      { s with
        sotile := s.sotile.write k b
        frameEngine := (s.noteOverwritten (.sotile k (s.sotile.read k))).frameEngine
        tick := (s.noteOverwritten (.sotile k (s.sotile.read k))).tick } := by
  simp only [State.hostWriteSotile, State.writeSotile]
  rw [noteOverwritten_frame]

end Sys2Proof.Machine
end

section
/-! PROOF. The configuration and the built LUT (00_scope.md rule R9; 40_lut.md rule R114). -/

namespace Sys2Proof.Machine

/-- Beginning an operation changes the progress of its engine, and CMAP and PCNT for OBJCONV (42_object.md rule R142). -/
theorem beginOp_frame (i : Instr) (s : State) :
    beginOp i s =
      { s with
        cmap := (beginOp i s).cmap
        pcnt := (beginOp i s).pcnt
        frameEngine := (beginOp i s).frameEngine
        pfEngine := (beginOp i s).pfEngine } := by
  cases i <;> rfl

/-- The configuration is kept by everything that can happen (rule R9). -/
theorem cfg_kept (c : Cfg) : KeptByMoves (fun s => s.cfg = c) where
  setInputs _ h := h
  noteIssue i h := by rw [noteIssue_frame]; exact h
  lutinit h _ := h
  palconv h _ := by rw [palconv_frame]; exact h
  objconv h _ := by rw [objconv_frame]; exact h
  pfwrite _ _ h _ := h
  beginOp i h _ := by rw [beginOp_frame]; exact h
  frameWork h := by rw [(frameWork_same _).2.2.2.1]; exact h
  pfWork h := by rw [pfWork_frame]; exact h
  hostWriteSpal i v h := by rw [hostWriteSpal_frame]; exact h
  hostWriteSobj k v h := by rw [hostWriteSobj_frame]; exact h
  hostWriteSotile k b _ h := by rw [hostWriteSotile_frame]; exact h
  clearMaps h := by simpa using h

/-- Settles O51: `cfg_kept`, and the reset event hands the configuration on. -/
theorem configurationNeverChanges : Obligations.ConfigurationNeverChanges :=
  fun s _ h => (cfg_kept s.cfg).step (fun _ _ hu => hu) rfl h

/-- Writing an entry of a built LUT again changes nothing (rule R116). -/
theorem lutEntry_of_built {s : State} (h : ∀ b : Byte, s.lut.read b.toFin = lutword b) (i : Fin 256) :
    lutEntry i s = s := by
  have hi : lutword (BitVec.ofFin i) = s.lut.read i := (h (BitVec.ofFin i)).symm
  simp only [lutEntry, State.writeLut, hi, Table.write_read]

/-- A table of the colour words is the table LUTINIT makes (rule R113). -/
theorem lut_eq_of_built {l : Table Word 256} (h : ∀ b : Byte, l.read b.toFin = lutword b) :
    (.tabulate fun b => lutword (BitVec.ofFin b)) = l :=
  Table.ext_read fun i => by rw [Table.read_tabulate]; exact (h (BitVec.ofFin i)).symm

/-- A turn of the frame engine leaves a built LUT alone: only LUTINIT's turns write it, and they write what it holds. -/
theorem frameWork_lut_of_built {s : State} (h : ∀ b : Byte, s.lut.read b.toFin = lutword b) (hv : s.lutv = true) :
    (frameWork s).lut = s.lut ∧ (frameWork s).lutv = true := by
  cases hf : s.frameEngine with
  | idle => rw [frameWork_idle hf]; exact ⟨rfl, hv⟩
  | lutinit i => rw [frameWork_lutinit hf, lutEntry_of_built h, afterEntry]; split <;> exact ⟨rfl, by simp [hv]⟩
  | palconv i old => rw [frameWork_palconv hf, afterEntry, palEnd_frame, palTurn_frame]; split <;> exact ⟨rfl, hv⟩
  | objconv t old => rw [frameWork_objconv hf, afterSlot, objTurn_frame]; split <;> exact ⟨rfl, hv⟩
  | framePal i old => rw [frameWork_framePal hf, afterEntry, palEnd_frame, palTurn_frame]; split <;> exact ⟨rfl, hv⟩
  | frameObj t old => rw [frameWork_frameObj hf, afterSlot, objTurn_frame]; split <;> exact ⟨rfl, hv⟩

/-- That the LUT is `l`, filled with the colour words, and LUTV is 1, is kept by everything but the reset event. -/
theorem builtLut_kept {l : Table Word 256} (hl : ∀ b : Byte, l.read b.toFin = lutword b) :
    KeptByMoves (fun s => s.lut = l ∧ s.lutv = true) where
  setInputs _ h := h
  noteIssue i h := by rw [noteIssue_frame]; exact h
  lutinit _ _ := ⟨lut_eq_of_built hl, rfl⟩
  palconv h _ := by rw [palconv_frame]; exact h
  objconv h _ := by rw [objconv_frame]; exact h
  pfwrite _ _ h _ := h
  beginOp i h _ := by rw [beginOp_frame]; exact h
  frameWork h := by
    obtain ⟨rfl, hv⟩ := h
    exact frameWork_lut_of_built hl hv
  pfWork h := by rw [pfWork_frame]; exact h
  hostWriteSpal i v h := by rw [hostWriteSpal_frame]; exact h
  hostWriteSobj k v h := by rw [hostWriteSobj_frame]; exact h
  hostWriteSotile k b _ h := by rw [hostWriteSotile_frame]; exact h
  clearMaps h := by simpa using h

/-- Settles O50: the LUT is a table of colour words, and `builtLut_kept` of that table. -/
theorem builtLutIsImmutable : Obligations.BuiltLutIsImmutable :=
  fun _ _ hbuilt hv hr hs => (builtLut_kept (hbuilt hv)).step_of_no_reset hr ⟨rfl, hv⟩ hs

end Sys2Proof.Machine
end

section
/-! PROOF. The invariant `Inv` (10_state.md rules R28, R29, R40a; 30_encoding.md rule R95; 00_scope.md rule R9). -/

namespace Sys2Proof.Machine

/-! ## The compaction map during a scan (10_state.md rule R28) -/

/-- The emptied map is exact. -/
theorem compactionExact_objStart (s : State) : CompactionExact (objStart s) := by
  refine ⟨fun p => by simp [objStart], fun d h1 h2 => ?_⟩
  have : d.toNat ≤ 0 := h2
  omega

/-- While a slot is left the next slot's number does not wrap. -/
theorem pcnt_succ_toNat {n : BitVec 4} (h : n < 15#4) : (n + 1#4).toNat = n.toNat + 1 := by
  have h' : n.toNat < 15 := h
  rw [BitVec.toNat_add, BitVec.toNat_ofNat]
  omega

/-- Giving the next slot to a palette that has none keeps the map exact (42_object.md rule R147). -/
theorem compactionExact_assign {s t : State} (h : CompactionExact s) {p : Fin 32} (h0 : s.cmap.read p = 0#4)
    (hlt : s.pcnt < 15#4) (hc : t.cmap = s.cmap.write p (s.pcnt + 1#4)) (hn : t.pcnt = s.pcnt + 1#4) :
    CompactionExact t := by
  obtain ⟨hle, hone⟩ := h
  have hsucc := pcnt_succ_toNat hlt
  unfold CompactionExact
  simp only [hc, hn, Table.read_write, hsucc]
  constructor
  · intro q
    split
    · rw [hsucc]
    · exact (hle q).trans (Nat.le_succ _)
  · intro d h1 h2
    by_cases hd : d = s.pcnt + 1#4
    · subst hd
      refine ⟨p, if_pos rfl, fun q hq => ?_⟩
      split at hq
      · next e => exact e.symm
      · have := hle q
        rw [hq] at this
        omega
    · have hd' : d.toNat ≠ s.pcnt.toNat + 1 := fun e => hd (BitVec.eq_of_toNat_eq (e.trans hsucc.symm))
      obtain ⟨r, hr, huniq⟩ := hone d h1 (by omega)
      have hpr : p ≠ r := by
        rintro rfl
        rw [← hr, h0] at h1
        simp at h1
      refine ⟨r, by rw [if_neg hpr]; exact hr, fun q hq => ?_⟩
      split at hq
      · exact absurd hq.symm hd
      · exact huniq q hq

/-- A slot's turn keeps the map exact. -/
theorem compactionExact_objSlot {s : State} (h : CompactionExact s) (t : Fin 48) : CompactionExact (objSlot s t) := by
  cases hl : liveSlot s t
  · rw [objSlot_dead s t hl]
    exact h
  · rw [objSlot_live s t hl]
    rcases resolvePalette_cases (slotPal s t) s with ⟨-, e⟩ | ⟨h0, hlt, e⟩ | ⟨-, -, e⟩ <;> rw [e]
    · exact h
    · exact compactionExact_assign h h0 hlt rfl rfl
    · exact h

/-! ## The form of the memory (30_encoding.md rule R95) -/

/-- A slot's turn stages a block of SOTILE or nothing. -/
theorem objSlot_wf {s : State} (h : Memory.wf s = true) (t : Fin 48) : Memory.wf (objSlot s t) = true := by
  cases hl : liveSlot s t
  · rw [objSlot_dead s t hl, writeToam_wf]
    exact h
  · rw [objSlot_live s t hl]
    exact stageTile_wf h t (objEntry s t)

/-- The blocks an operation sees are blocks: each stands in SOTILE or is remembered. -/
theorem seenFor_wf {s : State} (h : Memory.wf s = true) (reader : Site) :
    Memory.wf (s.seenFor reader s.frameEngine.overwritten) = true := by
  rw [memory_wf_iff] at h ⊢
  obtain ⟨hsotile, hstage, hold⟩ := h
  refine ⟨fun k => ?_, hstage, hold⟩
  rcases seenFor_sotile s reader s.frameEngine.overwritten k with e | e
  · rw [e]
    exact hsotile k
  · exact hold k _ e

/-- An engine that remembers nothing new keeps the form. -/
theorem setFrameEngine_wf {s : State} (h : Memory.wf s = true) {e : FrameEngine}
    (ho : e.overwritten ⊆ s.frameEngine.overwritten) : Memory.wf (s.setFrameEngine e) = true := by
  rw [memory_wf_iff] at h ⊢
  obtain ⟨hsotile, hstage, hold⟩ := h
  exact ⟨hsotile, hstage, fun k b hb => hold k b (ho hb)⟩

/-! ## The invariant, by the fields that change -/

/-- `Inv` does not speak of these fields. -/
theorem Inv.elsewhere {s : State} (h : Inv s) (spal : Table Byte 256) (sobj : Table Long 64) (tct : Table Word 256)
    (topal : Table (Table Word 16) 16) (toam : Table SpriteEntry 48) (mapa mapb : Table Word 4096) (pe : PfEngine)
    (moves : List HostMove) (issued : Bool) (tick : Nat) :
    Inv { s with
      spal := spal, sobj := sobj, tct := tct, topal := topal, toam := toam, mapa := mapa, mapb := mapb, pfEngine := pe
      inputs := moves, pfIssued := issued, tick := tick } :=
  ⟨h.lutBuilt, h.lutBuiltSoFar, h.compaction, h.memory, h.config⟩

/-- The frame engine may go to any place that is not in LUTINIT, and is in OBJCONV only with an exact map. -/
theorem Inv.setFrameEngine {s : State} (h : Inv s) {e : FrameEngine} (hl : ∀ i, e ≠ .lutinit i)
    (hc : scanning (s.setFrameEngine e) = true → CompactionExact s)
    (ho : e.overwritten ⊆ s.frameEngine.overwritten) : Inv (s.setFrameEngine e) where
  lutBuilt := h.lutBuilt
  lutBuiltSoFar i he := absurd he (hl i)
  compaction := hc
  memory := setFrameEngine_wf h.memory ho
  config := h.config

theorem Inv.idleFrameEngine {s : State} (h : Inv s) : Inv (s.setFrameEngine .idle) :=
  h.setFrameEngine nofun nofun (List.nil_subset _)

/-! ## The frame operations -/

/-- LUTINIT, run with its engine idle. -/
theorem Inv.lutinit {s : State} (h : Inv s) (hidle : s.frameEngine = .idle) : Inv (lutinit s) where
  lutBuilt _ _ := Table.read_tabulate _ _
  lutBuiltSoFar _ he := absurd (hidle.symm.trans he) nofun
  compaction := h.compaction
  memory := h.memory
  config := h.config

/-- One entry more of LUTINIT. -/
theorem lutEntry_read (i : Fin 256) (s : State) (b : Byte) :
    (lutEntry i s).lut.read b.toFin = if i.val = b.toNat then lutword b else s.lut.read b.toFin := by
  simp only [lutEntry, State.writeLut_lut, Table.read_write]
  by_cases hb : i = b.toFin
  · subst hb
    simp
  · rw [if_neg hb, if_neg (show i.val ≠ b.toNat from fun e => hb (Fin.ext e))]

theorem Inv.lutEntry {s : State} (h : Inv s) {i : Fin 256} (hf : s.frameEngine = .lutinit i) :
    Inv (afterEntry i (lutEntry i s).setFrameEngine .lutinit ((lutEntry i s).setLutv.setFrameEngine .idle)) := by
  have hdone : ∀ b : Byte, b.toNat < i.val + 1 → (Machine.lutEntry i s).lut.read b.toFin = lutword b := by
    intro b hb
    rw [lutEntry_read]
    split
    · rfl
    · exact h.lutBuiltSoFar i hf b (by omega)
  unfold afterEntry
  split
  · refine ⟨fun hv b => ?_, fun j hj b hb => ?_, nofun, ?_, h.config⟩
    · simp only [State.setFrameEngine_lut, lutEntry_read]
      split
      · rfl
      · exact h.lutBuilt hv b
    · cases hj
      exact hdone b hb
    · exact setFrameEngine_wf h.memory (List.nil_subset _)
  · refine ⟨fun _ b => hdone b (by omega), nofun, nofun, ?_, h.config⟩
    exact setFrameEngine_wf h.memory (List.nil_subset _)

theorem Inv.palTurn {s : State} (h : Inv s) (i : Fin 256) (old : List Overwritten) : Inv (palTurn i old s) := by
  rw [palTurn_frame]
  exact h.elsewhere ..

theorem Inv.palEnd {s : State} (h : Inv s) : Inv (palEnd s) := by
  rw [palEnd_frame]
  exact h.elsewhere ..

/-- OBJCONV's start leaves an exact map. -/
theorem Inv.objStart {s : State} (h : Inv s) : Inv (objStart s) :=
  ⟨h.lutBuilt, h.lutBuiltSoFar, fun _ => compactionExact_objStart s, h.memory, h.config⟩

/-- OBJCONV's end leaves the map unspecified, and no scan is in progress then. -/
theorem Inv.objEnd {s : State} (h : Inv s) (hidle : s.frameEngine = .idle) : Inv (objEnd s) :=
  ⟨h.lutBuilt, h.lutBuiltSoFar, fun hs => absurd (show scanning s = true from hs) (by simp [scanning, hidle]),
    h.memory, h.config⟩

theorem Inv.objSlot {s : State} (h : Inv s) (t : Fin 48) : Inv (objSlot s t) where
  lutBuilt := by rw [objSlot_frame]; exact h.lutBuilt
  lutBuiltSoFar := by rw [objSlot_frame]; exact h.lutBuiltSoFar
  compaction hs := compactionExact_objSlot (h.compaction (by rw [objSlot_frame] at hs; exact hs)) t
  memory := objSlot_wf h.memory t
  config := by rw [objSlot_frame]; exact h.config

theorem Inv.scan {s : State} (h : Inv s) (l : List (Fin 48)) : Inv (l.foldl Machine.objSlot s) := by
  induction l generalizing s with
  | nil => exact h
  | cons t l ih => exact ih (h.objSlot t)

theorem Inv.objconv {s : State} (h : Inv s) (hidle : s.frameEngine = .idle) : Inv (objconv s) :=
  Inv.objEnd (h.objStart.scan slots) (by rw [objScan, scan_frame]; exact hidle)

/-- OBJCONV's turn, in an operation that remembers `old`. -/
theorem Inv.objTurn {s : State} (h : Inv s) (t : Fin 48) {old : List Overwritten}
    (ho : s.frameEngine.overwritten = old) : Inv (objTurn t old s) := by
  subst ho
  have hseen : Inv (s.seenFor (.toam t) s.frameEngine.overwritten) :=
    ⟨h.lutBuilt, h.lutBuiltSoFar, h.compaction, seenFor_wf h.memory _, h.config⟩
  have hslot := hseen.objSlot t
  have hstage := ((memory_wf_iff _).mp hslot.memory).2
  rw [objTurn_frame]
  rw [objSlot_frame] at hslot hstage
  refine ⟨h.lutBuilt, h.lutBuiltSoFar, hslot.compaction, ?_, h.config⟩
  rw [memory_wf_iff]
  exact ⟨((memory_wf_iff s).mp h.memory).1, hstage⟩

/-- An operation's turn for one entry leads to the next entry or to what follows the loop. -/
theorem inv_afterEntry {i : Fin 256} {again : FrameEngine → State} {next : Fin 256 → FrameEngine} {done : State}
    (ha : ∀ j, Inv (again (next j))) (hd : Inv done) : Inv (afterEntry i again next done) := by
  unfold afterEntry
  split
  · exact ha _
  · exact hd

theorem inv_afterSlot {t : Fin 48} {again : FrameEngine → State} {next : Fin 48 → FrameEngine} {done : State}
    (ha : ∀ j, Inv (again (next j))) (hd : Inv done) : Inv (afterSlot t again next done) := by
  unfold afterSlot
  split
  · exact ha _
  · exact hd

/-- A turn of the frame engine. -/
theorem Inv.frameWork {s : State} (h : Inv s) : Inv (frameWork s) := by
  have hpal : ∀ i old, (Machine.palTurn i old s).frameEngine = s.frameEngine := fun i old => by rw [palTurn_frame]
  have hobj : ∀ t old, (Machine.objTurn t old s).frameEngine = s.frameEngine := fun t old => by rw [objTurn_frame]
  cases hf : s.frameEngine with
  | idle => rw [frameWork_idle hf]; exact h
  | lutinit i => rw [frameWork_lutinit hf]; exact h.lutEntry hf
  | palconv i old =>
    rw [frameWork_palconv hf]
    refine inv_afterEntry (fun j => ?_) (h.palTurn i old).palEnd.idleFrameEngine
    exact (h.palTurn i old).setFrameEngine nofun nofun (by rw [hpal, hf]; exact List.Subset.refl _)
  | objconv t old =>
    have ht := h.objTurn t (old := old) (by rw [hf]; rfl)
    rw [frameWork_objconv hf]
    refine inv_afterSlot (fun j => ?_) (Inv.objEnd ht.idleFrameEngine rfl)
    refine ht.setFrameEngine nofun (fun _ => ht.compaction ?_) (by rw [hobj, hf]; exact List.Subset.refl _)
    simp [scanning, hobj, hf]
  | framePal i old =>
    rw [frameWork_framePal hf]
    refine inv_afterEntry (fun j => ?_) ?_
    · exact (h.palTurn i old).setFrameEngine nofun nofun (by rw [hpal, hf]; exact List.Subset.refl _)
    · refine (h.palTurn i old).palEnd.objStart.setFrameEngine nofun (fun _ => compactionExact_objStart _) ?_
      rw [palEnd_frame]
      simp [Machine.objStart, hpal, hf, FrameEngine.overwritten]
  | frameObj t old =>
    have ht := h.objTurn t (old := old) (by rw [hf]; rfl)
    rw [frameWork_frameObj hf]
    refine inv_afterSlot (fun j => ?_) (Inv.objEnd ht.idleFrameEngine rfl)
    refine ht.setFrameEngine nofun (fun _ => ht.compaction ?_) (by rw [hobj, hf]; exact List.Subset.refl _)
    simp [scanning, hobj, hf]

/-- An operation begins, with its engine idle. -/
theorem Inv.beginOp {s : State} (h : Inv s) (i : Instr) : Inv (beginOp i s) := by
  cases i with
  | lutinit =>
    refine ⟨h.lutBuilt, fun i hi b hb => ?_, nofun, setFrameEngine_wf h.memory (List.nil_subset _), h.config⟩
    cases hi
    exact absurd hb (Nat.not_lt_zero _)
  | palconv => exact h.setFrameEngine nofun nofun (List.nil_subset _)
  | objconv =>
    exact h.objStart.setFrameEngine nofun (fun _ => compactionExact_objStart s) (List.nil_subset _)
  | pfwrite addr data => exact h.elsewhere ..
  | frame => exact h.setFrameEngine nofun nofun (List.nil_subset _)

/-! ## The host's moves -/

/-- Remembering an overwritten value changes neither where the frame engine is nor what it does. -/
theorem scanning_noteOverwritten (s : State) (o : Overwritten) : scanning (s.noteOverwritten o) = scanning s := by
  cases hf : s.frameEngine <;> simp [scanning, State.noteOverwritten, State.readsInputs, FrameEngine.note, hf]

theorem noteOverwritten_lutinit {s : State} {o : Overwritten} {i : Fin 256}
    (h : (s.noteOverwritten o).frameEngine = .lutinit i) : s.frameEngine = .lutinit i := by
  cases hf : s.frameEngine <;> simp [State.noteOverwritten, State.readsInputs, FrameEngine.note, hf] at h ⊢
  exact h

theorem Inv.noteOverwritten {s : State} (h : Inv s) {o : Overwritten} (ho : o.ok s.cfg = true) :
    Inv (s.noteOverwritten o) where
  lutBuilt := by rw [noteOverwritten_frame]; exact h.lutBuilt
  lutBuiltSoFar i hi := by
    rw [noteOverwritten_frame]
    exact h.lutBuiltSoFar i (noteOverwritten_lutinit hi)
  compaction hs := by
    rw [noteOverwritten_frame]
    exact h.compaction ((scanning_noteOverwritten s o).symm.trans hs)
  memory := noteOverwritten_wf h.memory ho
  config := by rw [noteOverwritten_cfg]; exact h.config

theorem Inv.hostWriteSotile {s : State} (h : Inv s) (k : Fin 256) {b : Block} (hb : s.cfg.blockOk b = true) :
    Inv (s.hostWriteSotile k b) := by
  have hk : Overwritten.ok s.cfg (.sotile k (s.sotile.read k)) = true := by
    simpa [Overwritten.ok, Cfg.blockOk] using ((memory_wf_iff s).mp h.memory).1 k
  have hn := h.noteOverwritten hk
  exact ⟨hn.lutBuilt, hn.lutBuiltSoFar, hn.compaction, hostWriteSotile_wf h.memory k hb, hn.config⟩

/-- After the reset event. -/
theorem inv_afterReset {c : Cfg} (hc : c.valid = true) (n : Nat) (moves : List HostMove) :
    Inv (State.afterReset c n moves) :=
  ⟨nofun, nofun, nofun, afterReset_wf c n moves, hc⟩

/-- `Inv` is kept by everything that can happen. -/
theorem inv_kept : KeptByMoves Inv where
  setInputs _ h := h.elsewhere ..
  noteIssue i h := by rw [noteIssue_frame]; exact h.elsewhere ..
  lutinit h hidle := h.lutinit hidle
  palconv h _ := by rw [palconv_frame]; exact h.elsewhere ..
  objconv h hidle := h.objconv hidle
  pfwrite _ _ h _ := h.elsewhere ..
  beginOp i h _ := h.beginOp i
  frameWork h := h.frameWork
  pfWork h := by rw [pfWork_frame]; exact h.elsewhere ..
  hostWriteSpal _ _ h := (h.noteOverwritten rfl).elsewhere ..
  hostWriteSobj _ _ h := (h.noteOverwritten rfl).elsewhere ..
  hostWriteSotile k _ hb h := h.hostWriteSotile k hb
  clearMaps h := h.elsewhere ..

/-- Settles O47: `inv_kept`, and the reset event makes the invariant anew. -/
theorem everyStepKeepsTheInvariant : Obligations.EveryStepKeepsTheInvariant :=
  fun _ _ h hs => inv_kept.step (fun _ _ hu => inv_afterReset hu.config _ _) h hs

/-- Settles O48: LUTV is 0, no engine is busy, blocks have their length, and the straps are clamped to their ranges. -/
theorem powerOnMeetsTheInvariant : Obligations.PowerOnMeetsTheInvariant :=
  inv_afterReset (clamp_valid _) 0 []

end Sys2Proof.Machine
end

section
/-! PROOF. The partition of the map cells (10_state.md rules R36, R40b; 43_playfield.md rule R195). -/

namespace Sys2Proof.Machine

/-- The partition is about the maps, the playfield engine and the configuration only. -/
theorem MapsPartitioned.congr {s t : State} (h : MapsPartitioned s) (ha : t.mapa = s.mapa) (hb : t.mapb = s.mapb)
    (hp : t.pfEngine = s.pfEngine) (hc : t.cfg = s.cfg) : MapsPartitioned t := by
  unfold MapsPartitioned FirstWriteStands HalfDone CellOwned at h ⊢
  rw [ha, hb, hp, hc]
  exact h

/-- With no PFWRITE half done the partition says that every cell is owned. -/
theorem mapsPartitioned_iff_owned {s : State} (h : ∀ addr data, s.pfEngine ≠ .halfway addr data) :
    MapsPartitioned s ↔ ∀ d, CellOwned s d := by
  constructor
  · intro hs d
    rcases hs.2 d with ⟨addr, data, he, -⟩ | ho
    · exact absurd he (h addr data)
    · exact ho
  · exact fun ho => ⟨fun addr data he => absurd he (h addr data), fun d => .inr (ho d)⟩

/-- The first write: the cell written is now half done, the others are as they were (70_reset_and_hazards.md rule R257). -/
theorem MapsPartitioned.firstWrite {s : State} (h : ∀ d, CellOwned s d) (addr data : Word) :
    MapsPartitioned ((pfWriteA addr data s).setPfEngine (.halfway addr data)) := by
  refine ⟨fun a v he => ?_, fun d => ?_⟩
  · cases he
    exact .inl (Table.read_write_self ..)
  · by_cases hd : d = pfDest s.cfg addr
    · exact .inl ⟨addr, data, rfl, hd⟩
    · refine .inr ((h d).imp id fun ha => ?_)
      exact (Table.read_write_ne _ _ (Ne.symm hd)).trans ha

/-- The second write: the cell of the first is owned again, by `pfWords_owned`. -/
theorem MapsPartitioned.secondWrite {s : State} (h : MapsPartitioned s) {addr data : Word}
    (he : s.pfEngine = .halfway addr data) : MapsPartitioned ((pfWriteB addr data s).setPfEngine .idle) := by
  obtain ⟨hfirst, hcells⟩ := h
  rw [mapsPartitioned_iff_owned (by simp)]
  intro d
  by_cases hd : d = pfDest s.cfg addr
  · subst hd
    have hb : (pfWriteB addr data s).mapb.read (pfDest s.cfg addr) = pfWordB s.cfg data := Table.read_write_self ..
    rcases hfirst addr data he with ha | ha
    · exact (pfWords_owned s.cfg data).imp hb.trans ha.trans
    · exact .inr ha
  · rcases hcells d with ⟨a, v, he', hda⟩ | ho
    · obtain ⟨rfl, rfl⟩ := PfEngine.halfway.inj (he.symm.trans he')
      exact absurd hda hd
    · exact ho.imp (Table.read_write_ne _ _ (Ne.symm hd)).trans id

/-- A turn of the playfield engine. -/
theorem MapsPartitioned.pfWork {s : State} (h : MapsPartitioned s) : MapsPartitioned (pfWork s) := by
  unfold Machine.pfWork
  split
  case h_1 => exact h
  case h_2 addr data he =>
    exact .firstWrite ((mapsPartitioned_iff_owned (by rw [he]; exact fun _ _ => nofun)).mp h) addr data
  case h_3 addr data he => exact h.secondWrite he

/-- A PFWRITE begins where every cell is owned. -/
theorem MapsPartitioned.accept {s : State} (h : MapsPartitioned s) (hidle : s.pfEngine = .idle) (addr data : Word) :
    MapsPartitioned (s.setPfEngine (.accepted addr data)) := by
  have howned : ∀ d, CellOwned s d := (mapsPartitioned_iff_owned (by rw [hidle]; exact fun _ _ => nofun)).mp h
  exact (mapsPartitioned_iff_owned (by simp)).mpr howned

/-- With its engine idle a PFWRITE run whole is its two turns (20_memory.md rule R60). -/
theorem pfwrite_eq_turns {s : State} (hidle : s.pfEngine = .idle) (addr data : Word) :
    pfwrite addr data s = pfWork (pfWork (s.setPfEngine (.accepted addr data))) := by
  calc pfwrite addr data s
    _ = { pfwrite addr data s with pfEngine := s.pfEngine } := rfl
    _ = pfWork (pfWork (s.setPfEngine (.accepted addr data))) := by rw [hidle]; rfl

/-- The partition is kept by everything but the reset event. -/
theorem mapsPartitioned_kept : KeptByMoves MapsPartitioned where
  setInputs _ h := h.congr rfl rfl rfl rfl
  noteIssue i h := by rw [noteIssue_frame]; exact h.congr rfl rfl rfl rfl
  lutinit h _ := h.congr rfl rfl rfl rfl
  palconv h _ := by rw [palconv_frame]; exact h.congr rfl rfl rfl rfl
  objconv h _ := by rw [objconv_frame]; exact h.congr rfl rfl rfl rfl
  pfwrite addr data h hidle := by
    rw [pfwrite_eq_turns hidle]
    exact (h.accept hidle addr data).pfWork.pfWork
  beginOp i h hb := by
    cases i with
    | pfwrite addr data => exact h.accept (pfEngine_idle_of_busyFor rfl hb) addr data
    | lutinit => exact h.congr rfl rfl rfl rfl
    | palconv => exact h.congr rfl rfl rfl rfl
    | objconv => exact h.congr rfl rfl rfl rfl
    | frame => exact h.congr rfl rfl rfl rfl
  frameWork {s} h := by
    obtain ⟨ha, hb, hp, hc, -⟩ := frameWork_same s
    exact h.congr ha hb hp hc
  pfWork h := h.pfWork
  hostWriteSpal i v h := by rw [hostWriteSpal_frame]; exact h.congr rfl rfl rfl rfl
  hostWriteSobj k v h := by rw [hostWriteSobj_frame]; exact h.congr rfl rfl rfl rfl
  hostWriteSotile k b _ h := by rw [hostWriteSotile_frame]; exact h.congr rfl rfl rfl rfl
  clearMaps {s} _ :=
    ⟨fun _ _ _ => .inr (clearMaps_maps s _).1, fun d => .inr (.inl (clearMaps_maps s d).2)⟩

/-- Settles O49: `mapsPartitioned_kept`. -/
theorem everyStepKeepsTheMapsPartitioned : Obligations.EveryStepKeepsTheMapsPartitioned :=
  fun _ _ h hr hs => mapsPartitioned_kept.step_of_no_reset hr h hs

end Sys2Proof.Machine
end

section
/-! PROOF. The colour function, LUTINIT and PALCONV (spec/40_lut.md, spec/41_palette.md). -/

namespace Sys2Proof.Machine

/-! ## The colour function -/

/-- The colour word as a number: three fields of five bits, bit 15 zero (rule R112, decision D7). -/
theorem lutword_toNat (b : Byte) :
    (lutword b).toNat =
      1024 * (expand2 (colourB b)).toNat + 32 * (expand3 (colourG b)).toNat + (expand3 (colourR b)).toNat := by
  have hg := (expand3 (colourG b)).isLt
  have hr := (expand3 (colourR b)).isLt
  simp only [lutword, BitVec.toNat_append]
  rw [← Nat.shiftLeft_add_eq_or_of_lt (by omega), ← Nat.shiftLeft_add_eq_or_of_lt (by omega)]
  simp [Nat.shiftLeft_eq]
  omega

/-- The byte is its three colour fields (30_encoding.md rule R86, decision D6). -/
theorem byte_toNat (b : Byte) : b.toNat = 32 * (colourR b).toNat + 4 * (colourG b).toNat + (colourB b).toNat := by
  have := b.isLt
  simp only [colourR, colourG, colourB, BitVec.extractLsb'_toNat, Nat.shiftRight_eq_div_pow]
  omega

theorem expand3_eq_replication (f : BitVec 3) : (expand3 f).toNat = ((f.toNat <<< 2) ||| (f.toNat >>> 1)) &&& 0x1F := by
  decide +revert

theorem expand2_eq_replication (f : BitVec 2) :
    (expand2 f).toNat = ((f.toNat <<< 3) ||| (f.toNat <<< 1) ||| (f.toNat >>> 1)) &&& 0x1F := by
  decide +revert

theorem expand3_strictMono (f g : BitVec 3) (h : f < g) : expand3 f < expand3 g := by decide +revert

theorem expand2_strictMono (f g : BitVec 2) (h : f < g) : expand2 f < expand2 g := by decide +revert

theorem expand3_injective : Function.Injective expand3 := by
  intro f g
  decide +revert

theorem expand2_injective : Function.Injective expand2 := by
  intro f g
  decide +revert

/-- Settles O6: the expansions by their few values; `lutword` because its three fields are disjoint. -/
theorem lutwordIsBitReplication : Obligations.LutwordIsBitReplication := by
  refine ⟨expand3_eq_replication, expand2_eq_replication, fun b => ?_⟩
  change (lutword b).toNat =
    ((expand2 (colourB b)).toNat <<< 10) ||| ((expand3 (colourG b)).toNat <<< 5) ||| (expand3 (colourR b)).toNat
  have hg := (expand3 (colourG b)).isLt
  have hr := (expand3 (colourR b)).isLt
  rw [lutword_toNat, Nat.or_assoc, ← Nat.shiftLeft_add_eq_or_of_lt hr, ← Nat.shiftLeft_add_eq_or_of_lt]
  · simp only [Nat.shiftLeft_eq]
    omega
  · simp only [Nat.shiftLeft_eq]
    omega

/-- Different bytes have different colour words: the fields of the word are read back, then those of the byte. -/
theorem lutword_injective : Function.Injective lutword := by
  intro b c h
  have hn := congrArg BitVec.toNat h
  rw [lutword_toNat, lutword_toNat] at hn
  have hgb := (expand3 (colourG b)).isLt
  have hrb := (expand3 (colourR b)).isLt
  have hgc := (expand3 (colourG c)).isLt
  have hrc := (expand3 (colourR c)).isLt
  have hR : colourR b = colourR c := expand3_injective (BitVec.eq_of_toNat_eq (by omega))
  have hG : colourG b = colourG c := expand3_injective (BitVec.eq_of_toNat_eq (by omega))
  have hB : colourB b = colourB c := expand2_injective (BitVec.eq_of_toNat_eq (by omega))
  apply BitVec.eq_of_toNat_eq
  rw [byte_toNat b, byte_toNat c, hR, hG, hB]

/-- Settles O7. -/
theorem lutwordProperties : Obligations.LutwordProperties := by
  refine ⟨by decide, by decide, fun b => ?_, expand3_strictMono, expand2_strictMono, fun _ _ h => lutword_injective h⟩
  apply Nat.testBit_lt_two_pow
  have h2 := (expand2 (colourB b)).isLt
  have hg := (expand3 (colourG b)).isLt
  have hr := (expand3 (colourR b)).isLt
  rw [lutword_toNat]
  omega

/-! ## LUTINIT -/

@[simp] theorem lutinit_lut_read (s : State) (b : Byte) : (lutinit s).lut.read b.toFin = lutword b :=
  Table.read_tabulate _ _

/-- Settles O8. -/
theorem lutinitBuildsTheLut : Obligations.LutinitBuildsTheLut :=
  fun s => ⟨lutinit s, rfl, lutinit_lut_read s, rfl, rfl⟩

/-- Settles O9: what LUTINIT writes does not depend on the state. -/
theorem lutinitAgainChangesNothing : Obligations.LutinitAgainChangesNothing := by
  intro s t h
  cases h
  exact congrArg Host.Outcome.next (show lutinit (lutinit s) = lutinit s from rfl)

/-! ## PALCONV -/

/-- Before the LUT is built a colour word is the free value of its element (rules R131, R141). -/
theorem colourWord_of_not_lutv {s : State} (h : s.lutv = false) (b : Byte) (site : Site) :
    s.colourWord b site = Config.unspecified 16 s.tick site := by
  simp [State.colourWord, h]

theorem palconv_tct_read (s : State) (i : Fin 256) : (palconv s).tct.read i = s.colourWord (s.spal.read i) (.tct i) := by
  rw [palconv_frame]
  exact Table.read_tabulate _ _

/-- Settles O11: with LUTV = 0 each entry is a free value, and only the counter of these moves on beside TCT. -/
theorem palconvWithoutLutCompletes : Obligations.PalconvWithoutLutCompletes := by
  intro s hv
  refine ⟨palconv s, rfl, fun i => ?_, ?_⟩
  · rw [palconv_tct_read, colourWord_of_not_lutv hv]
  · rw [palconv_frame]

/-- Settles O12: PALCONV looks the byte up in the table LUTINIT has just made. -/
theorem bootThenPalconvGivesColourWords : Obligations.BootThenPalconvGivesColourWords := by
  intro s t u ht hu i
  cases ht
  cases hu
  rw [palconv_tct_read, colourWord_of_lutv rfl, lutinit_lut_read, lutinit_frame]

end Sys2Proof.Machine
end

section
/-! PROOF. PFWRITE (spec/43_playfield.md). -/

namespace Sys2Proof.Machine

/-! ## The computed values -/

/-- `dt` as the pseudocode computes it (rule R189). -/
theorem pfDestTile_eq (c : Cfg) (v : Word) :
    pfDestTile c v =
      if 256 * (v.toNat / 32768) + v.toNat % 256 < c.pfLogoT.toNat then
        4 * (256 * (v.toNat / 32768) + v.toNat % 256) + v.toNat / 256 % 64 % 4
      else 4 * c.pfLogoT.toNat + (256 * (v.toNat / 32768) + v.toNat % 256 - c.pfLogoT.toNat) := by
  simp only [pfDestTile, pfTile9_toNat, pfSub_toNat]

/-- The entry as the pseudocode computes it (rule R191). -/
theorem pfEntry_eq (c : Cfg) (v : Word) :
    pfEntry c v = BitVec.ofNat 16 (4096 * (v.toNat / 256 % 64 / 4) + pfDestTile c v % 1024) := by
  apply BitVec.eq_of_toNat_eq
  rw [pfEntry, mapEntry_toNat, pfNib_toNat, BitVec.toNat_ofNat, BitVec.toNat_ofNat]
  omega

/-- The map index is the row and the column of the region (rule R187). -/
theorem pfDest_val (c : Cfg) (a : Word) :
    (pfDest c a).val =
      ((pfRow c a).toNat + c.pfInsetRow.toNat) % 64 * 64 + ((pfCol c a).toNat + c.pfInsetCol.toNat) % 64 := by
  have hr := (pfRow c a).isLt
  have hc := (pfCol c a).isLt
  simp only [pfDest, pfDrow, pfDcol, BitVec.toNat_add, BitVec.toNat_setWidth]
  omega

/-- Settles O24: the two writes of `pfwrite_frame`, index and words computed over integers. -/
theorem pfwriteWritesTheComputedCells : Obligations.PfwriteWritesTheComputedCells := by
  intro addr value s
  refine ⟨pfwrite addr value s, pfDest s.cfg addr, rfl, ?_, ?_⟩
  · rw [pfDest_val]
    cases hx : s.cfg.pfRotAxis <;> cases hd : s.cfg.pfRotDelta <;>
      simp [pfRow, pfCol, hx, hd, rotate_toNat, pfHi_toNat, pfLo_toNat]
  · rw [pfwrite_frame, pfWordA, pfWordB, pfEntry_eq, pfDestTile_eq]

/-- Settles O25: a tile below the threshold takes one of its four places, the others follow one by one. -/
theorem destinationTileFitsTwoMaps : Obligations.DestinationTileFitsTwoMaps := by
  intro c v w hlogo
  have hv := (pfTile9 v).isLt
  have hs := (pfSub v).isLt
  unfold pfDestTile
  constructor
  · split <;> omega
  · intro hlt hge
    rw [if_pos hlt, if_neg (by omega)]
    omega

/-! ## Where the writes go -/

/-- The rotation by one position is undone by the opposite one (rule R186). -/
theorem rotate_injective (d : RotDelta) : Function.Injective (rotate d) := by
  intro u v h
  cases d
  · exact (BitVec.add_left_inj 1#5).mp h
  · exact (BitVec.sub_left_inj 1#5).mp h

/-- The cell index is its column and its row (rule R183). -/
theorem pfIdx_eq_iff (a b : Word) : pfIdx a = pfIdx b ↔ pfHi a = pfHi b ∧ pfLo a = pfLo b := by
  constructor
  · intro h
    exact ⟨congrArg (BitVec.extractLsb' 5 5) h, congrArg (BitVec.extractLsb' 0 5) h⟩
  · rintro ⟨hhi, hlo⟩
    have h1 := congrArg BitVec.toNat hhi
    have h2 := congrArg BitVec.toNat hlo
    rw [pfHi_toNat, pfHi_toNat] at h1
    rw [pfLo_toNat, pfLo_toNat] at h2
    apply BitVec.eq_of_toNat_eq
    rw [pfIdx_toNat, pfIdx_toNat]
    omega

/-- The rotated column and row determine the source column and row, and the other way round (rule R186). -/
theorem pfColRow_eq_iff (c : Cfg) (a b : Word) :
    (pfCol c a = pfCol c b ∧ pfRow c a = pfRow c b) ↔ (pfHi a = pfHi b ∧ pfLo a = pfLo b) := by
  cases hx : c.pfRotAxis <;> simp only [pfCol, pfRow, hx, (rotate_injective _).eq_iff]

/-- The map index determines the column and row in the region (rule R187). -/
theorem pfDest_eq_iff (c : Cfg) (a b : Word) :
    pfDest c a = pfDest c b ↔ pfCol c a = pfCol c b ∧ pfRow c a = pfRow c b := by
  constructor
  · intro h
    have hv := congrArg Fin.val h
    rw [pfDest_val, pfDest_val] at hv
    have hra := (pfRow c a).isLt
    have hrb := (pfRow c b).isLt
    have hca := (pfCol c a).isLt
    have hcb := (pfCol c b).isLt
    exact ⟨BitVec.eq_of_toNat_eq (by omega), BitVec.eq_of_toNat_eq (by omega)⟩
  · rintro ⟨hc, hr⟩
    apply Fin.ext
    rw [pfDest_val, pfDest_val, hc, hr]

/-- Settles O27: index, rotated position, source position and cell index determine each other. -/
theorem cellMappingIsInjective : Obligations.CellMappingIsInjective := by
  intro c a b
  rw [pfDest_eq_iff, pfColRow_eq_iff, pfIdx_eq_iff]

/-! ## What the writes depend on -/

/-- The two words depend on the tile and the group of the value only (rules R188 to R192). -/
theorem pfWords_congr (c : Cfg) {v v' : Word} (ht : pfTile9 v = pfTile9 v') (hg : pfGrp v = pfGrp v') :
    pfWordA c v = pfWordA c v' ∧ pfWordB c v = pfWordB c v' := by
  have hs : pfSub v = pfSub v' := congrArg (BitVec.extractLsb' 0 2) hg
  have hn : pfNib v = pfNib v' := congrArg (BitVec.extractLsb' 2 4) hg
  have hdt : pfDestTile c v = pfDestTile c v' := by simp only [pfDestTile, ht, hs]
  have he : pfEntry c v = pfEntry c v' := by simp only [pfEntry, hn, hdt]
  simp only [pfWordA, pfWordB, hdt, he, and_self]

/-- A field is the same when its bits are. -/
theorem extractLsb'_congr {w : Nat} {a b : BitVec w} {start len : Nat}
    (h : ∀ j, start ≤ j → j < start + len → a.getLsbD j = b.getLsbD j) :
    a.extractLsb' start len = b.extractLsb' start len := by
  apply BitVec.eq_of_getLsbD_eq
  intro i hi
  simp only [BitVec.getLsbD_extractLsb', hi, decide_true, Bool.true_and]
  exact h _ (Nat.le_add_right _ _) (by omega)

/-- Settles O28: none of the ignored bits is in a field that the write depends on. -/
theorem pfwriteIgnoredBitsHaveNoEffect : Obligations.PfwriteIgnoredBitsHaveNoEffect := by
  intro a a' v v' s ha hv
  have hidx : pfIdx a = pfIdx a' := extractLsb'_congr fun j h1 h2 => ha j h1 (by omega)
  have hdest : pfDest s.cfg a = pfDest s.cfg a' := (cellMappingIsInjective s.cfg a a').mpr hidx
  have hgrp : pfGrp v = pfGrp v' := extractLsb'_congr fun j _ h2 => hv j (by omega)
  have htile : pfTile9 v = pfTile9 v' :=
    congrArg₂ (· ++ ·) (extractLsb'_congr fun j h1 _ => hv j (by omega)) (extractLsb'_congr fun j _ h2 => hv j (by omega))
  obtain ⟨hA, hB⟩ := pfWords_congr s.cfg htile hgrp
  exact congrArg Host.Outcome.next (by rw [pfwrite_frame, pfwrite_frame, hdest, hA, hB])

/-! ## Several writes -/

/-- Settles O26: the second writes go to the same two elements. -/
theorem pfwriteIsIdempotent : Obligations.PfwriteIsIdempotent := by
  intro addr value s t h
  cases h
  refine congrArg Host.Outcome.next ?_
  rw [pfwrite_frame addr value (pfwrite addr value s)]
  simp only [pfwrite_frame addr value s, Table.write_write]

/-- A write leaves every cell but its own alone in both maps. -/
theorem pfwrite_other_cell {s : State} {addr value : Word} {d : Fin 4096} (h : pfDest s.cfg addr ≠ d) :
    (pfwrite addr value s).mapa.read d = s.mapa.read d ∧ (pfwrite addr value s).mapb.read d = s.mapb.read d :=
  ⟨Table.read_write_ne _ _ h, Table.read_write_ne _ _ h⟩

/-- A sequence of writes keeps the configuration, and leaves the cells none of them targets alone. -/
theorem pfwrites_keep (l : List (Word × Word)) (s : State) :
    (l.foldl (fun u w => pfwrite w.1 w.2 u) s).cfg = s.cfg ∧
    ∀ d, (∀ w ∈ l, pfDest s.cfg w.1 ≠ d) →
      (l.foldl (fun u w => pfwrite w.1 w.2 u) s).mapa.read d = s.mapa.read d ∧
      (l.foldl (fun u w => pfwrite w.1 w.2 u) s).mapb.read d = s.mapb.read d := by
  induction l generalizing s with
  | nil => exact ⟨rfl, fun _ _ => ⟨rfl, rfl⟩⟩
  | cons w l ih =>
    obtain ⟨hcfg, hcells⟩ := ih (pfwrite w.1 w.2 s)
    refine ⟨hcfg, fun d hd => ?_⟩
    rw [List.forall_mem_cons] at hd
    obtain ⟨ha, hb⟩ := hcells d hd.2
    obtain ⟨ha', hb'⟩ := pfwrite_other_cell (value := w.2) hd.1
    exact ⟨ha.trans ha', hb.trans hb'⟩

/-- Settles O29: the write to the cell decides it, and the writes before and after do not matter. -/
theorem lastPfwriteDecidesTheCell : Obligations.LastPfwriteDecidesTheCell := by
  intro s before after addr value t hafter ht
  have hcell : t.mapa.read (pfDest s.cfg addr) = pfWordA s.cfg value ∧
      t.mapb.read (pfDest s.cfg addr) = pfWordB s.cfg value := by
    rw [List.foldl_append, List.foldl_cons] at ht
    have hcfg := (pfwrites_keep before s).1
    generalize before.foldl (fun u w => pfwrite w.1 w.2 u) s = u at ht hcfg
    rw [← hcfg] at hafter ⊢
    obtain ⟨ha, hb⟩ := (pfwrites_keep after (pfwrite addr value u)).2 (pfDest u.cfg addr) hafter
    rw [← ht, ha, hb]
    exact ⟨Table.read_write_self .., Table.read_write_self ..⟩
  obtain ⟨ha, hb⟩ := hcell
  refine ⟨fun hlt => ?_, fun hge => ?_, fun d hd => ?_⟩
  · rw [ha, hb]
    exact ⟨if_pos hlt, if_pos hlt⟩
  · rw [ha, hb]
    exact ⟨if_neg (by omega), if_neg (by omega)⟩
  · rw [← ht]
    exact (pfwrites_keep _ s).2 d hd

/-- Settles O36: the first turn is the write to MAPA. -/
theorem pfwriteIsSeenHalfDone : Obligations.PfwriteIsSeenHalfDone := by
  intro addr data s _
  exact ⟨Table.read_write_self .., rfl, fun d hd => Table.read_write_ne _ _ hd.symm⟩

end Sys2Proof.Machine
end

section
/-! PROOF. OBJCONV (spec/42_object.md): what it leaves in TOAM, TSTAGE and TOPAL, said once, and what follows from that. -/

namespace Sys2Proof.Machine

/-! ## The palette slot of an object (rules R147, R148) -/

/-- The slot that the palette of slot `k`'s object gets: its rank among the palettes met in scan order. -/
def givenSlot (s : State) (k : Fin 48) : BitVec 4 := BitVec.ofNat 4 (slotByRank (livePalettes s) (slotPal s k))

theorem slotByRank_lt (ps : List (BitVec 5)) (p : BitVec 5) : slotByRank ps p < 16 := by
  unfold slotByRank
  split <;> omega

theorem givenSlot_toNat (s : State) (k : Fin 48) : (givenSlot s k).toNat = slotByRank (livePalettes s) (slotPal s k) := by
  rw [givenSlot, BitVec.toNat_ofNat, Nat.mod_eq_of_lt (slotByRank_lt _ _)]

theorem slotPal_mem_livePalettes {s : State} {k : Fin 48} (h : liveSlot s k = true) : slotPal s k ∈ livePalettes s :=
  List.mem_map_of_mem (List.mem_filter.mpr ⟨mem_slots k, h⟩)

theorem mem_livePalettes {s : State} {p : BitVec 5} : p ∈ livePalettes s ↔ ∃ k, liveSlot s k = true ∧ slotPal s k = p := by
  constructor
  · intro h
    obtain ⟨k, hk, rfl⟩ := List.mem_map.mp h
    exact ⟨k, (List.mem_filter.mp hk).2, rfl⟩
  · rintro ⟨k, hk, rfl⟩
    exact slotPal_mem_livePalettes hk

/-- The objects and the slots of their palettes are read from SOBJ and the configuration only. -/
theorem givenSlot_congr {s t : State} (hl : ∀ k, liveSlot t k = liveSlot s k) (hp : ∀ k, slotPal t k = slotPal s k)
    (k : Fin 48) : givenSlot t k = givenSlot s k := by
  have hl' : liveSlot t = liveSlot s := funext hl
  have hp' : slotPal t = slotPal s := funext hp
  simp only [givenSlot, livePalettes, hl', hp']

/-! ## TOAM and TSTAGE after the operation -/

/-- A dead slot (rule R145). -/
theorem objconv_dead {s : State} {k : Fin 48} (h : liveSlot s k = false) :
    (objconv s).toam.read k = .off ∧ (objconv s).tstage.read k = s.tstage.read k := by
  obtain ⟨l, r, hsplit, hl, hr⟩ := slots_split k
  obtain ⟨htoam, hstage⟩ := scan_slot (l := l) (objStart s) hr
  have hdead : liveSlot (l.foldl objSlot (objStart s)) k = false := (scan_objects l (objStart s) k).1.trans h
  rw [objSlot_dead _ _ hdead] at htoam hstage
  change (objScan s).toam.read k = _ ∧ (objScan s).tstage.read k = _
  rw [objScan, hsplit, htoam, hstage]
  exact ⟨Table.read_write_self .., (scan_untouched l (objStart s) hl).2⟩

/-- A live slot (rules R148, R150, R151). -/
theorem objconv_live {s : State} {k : Fin 48} (h : liveSlot s k = true) :
    (objconv s).toam.read k = liveEntry s.cfg (objEntry s k) k (givenSlot s k) ∧
    (objconv s).tstage.read k = s.sotile.read (objTile (objEntry s k)).toFin := by
  obtain ⟨l, r, hsplit, -, hr⟩ := slots_split k
  obtain ⟨htoam, hstage⟩ := scan_slot (l := l) (objStart s) hr
  obtain ⟨hlive, hpal, hentry⟩ := scan_objects l (objStart s) k
  have hrank := (resolvePalette_rank (scan_compaction l s) (slotPal s k)).1
  have hlist : livePalettes s = (livePalettesOf l s ++ [slotPal s k]) ++ livePalettesOf r s := by
    simp [livePalettes_eq, hsplit, livePalettesOf, List.filter_append, h]
  have hgiven : givenSlot s k = (resolvePalette (slotPal s k) (l.foldl objSlot (objStart s))).1 := by
    apply BitVec.eq_of_toNat_eq
    rw [givenSlot_toNat, hrank, hlist, slotByRank_append _ _ (by simp)]
  rw [objSlot_live _ _ (hlive.trans h), hpal, hentry] at htoam hstage
  change (objScan s).toam.read k = _ ∧ (objScan s).tstage.read k = _
  rw [objScan, hsplit, htoam, hstage, hgiven]
  simp only [Table.read_write_self]
  rw [scan_frame]
  exact ⟨rfl, rfl⟩

/-- The palette slot in the sprite entry of a live object. -/
theorem objconv_pal {s : State} {k : Fin 48} (h : liveSlot s k = true) : ((objconv s).toam.read k).pal = givenSlot s k := by
  rw [(objconv_live h).1]
  rfl

/-! ## The compaction map at the end of the scan -/

theorem compactionExact_scan {s : State} (h : CompactionExact s) (l : List (Fin 48)) :
    CompactionExact (l.foldl objSlot s) := by
  induction l generalizing s with
  | nil => exact h
  | cons t l ih => exact ih (compactionExact_objSlot h t)

theorem compactionExact_objScan (s : State) : CompactionExact (objScan s) :=
  compactionExact_scan (compactionExact_objStart s) slots

/-- The map holds the slot of each live object's palette. -/
theorem objScan_cmap_live {s : State} {k : Fin 48} (h : liveSlot s k = true) :
    (objScan s).cmap.read (slotPal s k).toFin = givenSlot s k := by
  apply BitVec.eq_of_toNat_eq
  rw [objScan, (scan_compaction slots s).map, ← livePalettes_eq, if_pos (slotPal_mem_livePalettes h), givenSlot_toNat]

/-- The slots handed out are those of the live objects: exactly 1 to PCNT (rule R28). -/
theorem exists_givenSlot_iff (s : State) {d : BitVec 4} (hd : d ≠ 0#4) :
    (∃ k, liveSlot s k = true ∧ givenSlot s k = d) ↔ d.toNat ≤ (objScan s).pcnt.toNat := by
  obtain ⟨hle, hone⟩ := compactionExact_objScan s
  constructor
  · rintro ⟨k, hk, rfl⟩
    rw [← objScan_cmap_live hk]
    exact hle _
  · intro h
    have h1 : 1 ≤ d.toNat := Nat.one_le_iff_ne_zero.mpr fun e => hd (BitVec.eq_of_toNat_eq e)
    obtain ⟨p, hp, -⟩ := hone d h1 h
    have hmap := (scan_compaction slots s).map (BitVec.ofFin p)
    rw [← livePalettes_eq] at hmap
    change ((objScan s).cmap.read p).toNat = _ at hmap
    rw [hp] at hmap
    split at hmap
    case isTrue hmem =>
      obtain ⟨k, hk, hkp⟩ := mem_livePalettes.mp hmem
      refine ⟨k, hk, BitVec.eq_of_toNat_eq ?_⟩
      rw [givenSlot_toNat, hkp, hmap]
    case isFalse => omega

/-! ## TOPAL after the operation (rule R149) -/

/-- Every palette that has a slot is published in it. -/
def Published (s : State) : Prop :=
  ∀ p : BitVec 5, s.cmap.read p.toFin ≠ 0#4 → ∀ i : Fin 4,
    (s.topal.read (s.cmap.read p.toFin).toFin).read (i.castLE (by omega)) =
      s.colourWord (s.spal.read (palColourIndex p i)) (.topal (s.cmap.read p.toFin).toNat i)

theorem published_objStart (s : State) : Published (objStart s) := by
  intro p hp
  simp [objStart] at hp

/-- A palette that gets the next slot is published there, and overwrites no slot already handed out. -/
theorem published_objSlot {s : State} (h : Published s) (hc : CompactionExact s) (t : Fin 48) :
    Published (objSlot s t) := by
  cases hl : liveSlot s t
  · rw [objSlot_dead s t hl]
    exact h
  · rw [objSlot_live s t hl]
    rcases resolvePalette_cases (slotPal s t) s with ⟨-, e⟩ | ⟨h0, hlt, e⟩ | ⟨-, -, e⟩ <;> rw [e]
    · exact h
    · intro p
      simp only [Table.read_write]
      split
      case isTrue hp =>
        obtain rfl : slotPal s t = p := BitVec.eq_of_toFin_eq hp
        intro _ i
        rw [publish_read, dif_pos ⟨rfl, i.isLt⟩]
        rfl
      case isFalse hp =>
        intro hne i
        have hle := hc.1 p.toFin
        have hd : ¬ ((s.pcnt + 1#4).toFin = (s.cmap.read p.toFin).toFin ∧ (i.castLE (by omega) : Fin 16).val < 4) := by
          rintro ⟨hd, -⟩
          have hslot := congrArg BitVec.toNat (BitVec.eq_of_toFin_eq hd)
          rw [pcnt_succ_toNat hlt] at hslot
          omega
        rw [publish_read, dif_neg hd]
        exact h p hne i
    · exact h

theorem published_scan {s : State} (h : Published s) (hc : CompactionExact s) (l : List (Fin 48)) :
    Published (l.foldl objSlot s) := by
  induction l generalizing s with
  | nil => exact h
  | cons t l ih => exact ih (published_objSlot h hc t) (compactionExact_objSlot hc t)

/-- The slot of a live object holds the colours of its palette (rules R149, R141). -/
theorem objconv_topal_given {s : State} {k : Fin 48} (h : liveSlot s k = true) (h0 : givenSlot s k ≠ 0#4) (i : Fin 4) :
    ((objconv s).topal.read (givenSlot s k).toFin).read (i.castLE (by omega)) =
      s.colourWord (s.spal.read (palColourIndex (slotPal s k) i)) (.topal (givenSlot s k).toNat i) := by
  have hp := published_scan (published_objStart s) (compactionExact_objStart s) slots (slotPal s k)
  change _ → ∀ i : Fin 4, ((objScan s).topal.read _).read _ = _ at hp
  have hcmap := objScan_cmap_live h
  unfold objScan at hcmap
  rw [hcmap] at hp
  refine (hp h0 i).trans ?_
  rw [scan_frame]
  rfl

/-- A slot in which no palette is published keeps its content: one that no live object is given, or slot 0, which stands for
"no slot" (rules R149, R159; decision D12). -/
theorem objconv_topal_other {s : State} {d : BitVec 4} (h : ∀ k, liveSlot s k = true → givenSlot s k = d → d = 0#4) :
    (objconv s).topal.read d.toFin = s.topal.read d.toFin := by
  obtain ⟨-, hfirst, hlater⟩ := scan_topal slots (objStart s)
  by_cases hd : d = 0#4
  · subst hd
    exact hfirst 0 (Nat.zero_le _)
  · refine hlater d.toFin (Nat.lt_of_not_le fun hle => ?_)
    obtain ⟨k, hk, hkd⟩ := (exists_givenSlot_iff s hd).mpr hle
    exact hd (h k hk hkd)

/-- Only the first four entries of a slot are published (rule R159). -/
theorem scan_topal_upper (l : List (Fin 48)) (s : State) (d i : Fin 16) (hi : 4 ≤ i.val) :
    ((l.foldl objSlot s).topal.read d).read i = (s.topal.read d).read i := by
  induction l generalizing s with
  | nil => rfl
  | cons t l ih =>
    refine (ih (objSlot s t)).trans ?_
    cases hl : liveSlot s t
    · rw [objSlot_dead s t hl]
      rfl
    · rw [objSlot_live s t hl]
      rcases resolvePalette_cases (slotPal s t) s with ⟨-, e⟩ | ⟨-, -, e⟩ | ⟨-, -, e⟩ <;> rw [e]
      rw [publish_read, dif_neg (by omega)]
      rfl

theorem objconv_topal_upper (s : State) (d i : Fin 16) (hi : 4 ≤ i.val) :
    ((objconv s).topal.read d).read i = (s.topal.read d).read i :=
  scan_topal_upper slots (objStart s) d i hi

/-- Two runs with the same live palettes leave the same TOPAL, when they publish the same colours and what they do not publish
stood alike. -/
theorem objconv_topal_congr {s t : State} (hl : ∀ k, liveSlot t k = liveSlot s k) (hp : ∀ k, slotPal t k = slotPal s k)
    (hcolour : ∀ (p : BitVec 5) (i : Fin 4) (site : Site),
      t.colourWord (t.spal.read (palColourIndex p i)) site = s.colourWord (s.spal.read (palColourIndex p i)) site)
    (hupper : ∀ d i : Fin 16, 4 ≤ i.val → (t.topal.read d).read i = (s.topal.read d).read i)
    (hother : ∀ d : BitVec 4, (∀ k, liveSlot s k = true → givenSlot s k = d → d = 0#4) →
      t.topal.read d.toFin = s.topal.read d.toFin) :
    (objconv t).topal = (objconv s).topal := by
  have hg := givenSlot_congr hl hp
  refine Table.ext_read fun d => ?_
  by_cases hpub : ∀ k, liveSlot s k = true → givenSlot s k = BitVec.ofFin d → BitVec.ofFin d = 0#4
  · have hpub' : ∀ k, liveSlot t k = true → givenSlot t k = BitVec.ofFin d → BitVec.ofFin d = 0#4 := by
      simpa only [hl, hg] using hpub
    exact ((objconv_topal_other hpub').trans (hother _ hpub)).trans (objconv_topal_other hpub).symm
  · push Not at hpub
    obtain ⟨k, hk, hkd, h0⟩ := hpub
    rw [← hkd] at h0
    obtain rfl : (givenSlot s k).toFin = d := congrArg BitVec.toFin hkd
    refine Table.ext_read fun i => ?_
    by_cases hi : i.val < 4
    · have ht := objconv_topal_given (s := t) ((hl k).trans hk) (by rw [hg]; exact h0) ⟨i.val, hi⟩
      rw [hg, hp, hcolour] at ht
      exact ht.trans (objconv_topal_given hk h0 ⟨i.val, hi⟩).symm
    · have hi' : 4 ≤ i.val := Nat.le_of_not_lt hi
      rw [objconv_topal_upper t _ i hi', objconv_topal_upper s _ i hi', hupper _ i hi']

end Sys2Proof.Machine
end

section
/-! PROOF. The statements about OBJCONV (spec/42_object.md). -/

namespace Sys2Proof.Machine

/-! ## The fields of an object as numbers (30_encoding.md rule R88) -/

theorem objTile_toNat (e : Long) : (objTile e).toNat = e.toNat / 65536 % 256 := by
  simp [objTile, Nat.shiftRight_eq_div_pow]

theorem objX_toNat (e : Long) : (objX e).toNat = e.toNat / 256 % 256 := by
  simp [objX, Nat.shiftRight_eq_div_pow]

theorem objY_toNat (e : Long) : (objY e).toNat = e.toNat % 256 := by
  simp [objY]

theorem objPal_toNat (e : Long) : (objPal e).toNat = e.toNat / 2 ^ 24 % 32 := by
  simp [objPal, Nat.shiftRight_eq_div_pow]

/-- The target x as a number (rule R153). -/
theorem objXt_toNat (c : Cfg) (e : Long) : (objXt c e).toNat = (e.toNat / 256 % 256 + 8 + c.objInsetX.toNat) % 65536 := by
  simp only [objXt, BitVec.toNat_add, BitVec.toNat_setWidth, objX_toNat, BitVec.toNat_ofNat]
  omega

/-- The target y as a number: the difference may be negative, and wraps (rule R153, decision D16). -/
theorem objYt_toNat (c : Cfg) (e : Long) :
    ((objYt c e).toNat : Int) = ((c.objYBias.toNat : Int) - (e.toNat % 256 : Nat) + c.objInsetY.toNat) % 65536 := by
  simp only [objYt, BitVec.toNat_add, BitVec.toNat_sub, BitVec.toNat_setWidth, objY_toNat]
  omega

/-- The three comparisons of rule R144. -/
theorem live_iff (c : Cfg) (e : Long) :
    live c e = true ↔ objTile e ≠ c.objClearTile ∧ c.objYLo ≤ objY e ∧ objY e ≤ c.objYHi := by
  simp [live, and_assoc]

/-- Settles O15: the comparisons of `live_iff`, as comparisons of numbers. -/
theorem livenessOnRawFields : Obligations.LivenessOnRawFields := by
  intro c e
  rw [← objTile_toNat, ← objY_toNat, live_iff, ne_eq, ← BitVec.toNat_inj]
  exact Iff.rfl

/-! ## One execution -/

/-- OBJCONV leaves the inputs, the LUT and the configuration alone (rule R157). -/
theorem objconv_same (s : State) :
    (objconv s).spal = s.spal ∧ (objconv s).sobj = s.sobj ∧ (objconv s).sotile = s.sotile ∧ (objconv s).lut = s.lut ∧
    (objconv s).lutv = s.lutv ∧ (objconv s).cfg = s.cfg := by
  rw [objconv_frame]
  exact ⟨rfl, rfl, rfl, rfl, rfl, rfl⟩

/-- Settles O13. -/
theorem objconvCompletesWithinItsTables : Obligations.ObjconvCompletesWithinItsTables :=
  fun s => ⟨objconv s, rfl, objconv_frame s, objconv_topal_other (d := 0#4) fun _ _ _ => rfl, objconv_topal_upper s⟩

/-- Settles O14. -/
theorem deadSlotIsDisabled : Obligations.DeadSlotIsDisabled :=
  fun s k h => ⟨objconv s, rfl, objconv_dead (s := s) (k := k) h⟩

/-- Settles O16: the entry of `objconv_live`, its coordinates as numbers. -/
theorem liveSlotIsConverted : Obligations.LiveSlotIsConverted := by
  intro s k e he h
  subst he
  obtain ⟨htoam, hstage⟩ := objconv_live (s := s) (k := k) h
  refine ⟨objconv s, rfl, ?_, ?_⟩
  · rw [hstage]
    exact congrArg _ (Fin.ext (objTile_toNat _))
  · rw [htoam]
    have hk : (BitVec.ofNat 6 k.val).toNat = k.val := by
      rw [BitVec.toNat_ofNat]
      omega
    exact ⟨rfl, rfl, rfl, hk, objXt_toNat _ _, objYt_toNat _ _⟩

/-- Settles O17: the rank is `givenSlot`'s. -/
theorem palettesFirstComeFirstServed : Obligations.PalettesFirstComeFirstServed := by
  intro s
  refine ⟨fun k => ⟨rfl, objPal_toNat _⟩, objconv s, rfl, fun k hk => ?_⟩
  rw [objconv_pal hk, givenSlot_toNat]

/-- The index of a palette's colour, read off the object (rules R88, R149). -/
theorem palColourIndex_slotPal (s : State) (k : Fin 48) (i : Fin 4) :
    palColourIndex (slotPal s k) i =
      ⟨4 * ((s.sobj.read ⟨k.val + 16, by omega⟩).toNat / 2 ^ 24 % 32) + i.val, by omega⟩ :=
  Fin.ext (congrArg (4 * · + i.val) (objPal_toNat _))

/-- A slot that is in no live object's sprite entry keeps its content. -/
theorem objconv_topal_unused {s : State} {d : BitVec 4}
    (h : ∀ k, liveSlot s k = true → ((objconv s).toam.read k).pal ≠ d) :
    (objconv s).topal.read d.toFin = s.topal.read d.toFin :=
  objconv_topal_other fun k hk e => absurd ((objconv_pal hk).trans e) (h k hk)

/-- Settles O18: with the LUT built the published colours are lookups in it. -/
theorem assignedPalettesArePublished : Obligations.AssignedPalettesArePublished := by
  intro s hv
  refine ⟨objconv s, rfl, fun k hk h0 i => ?_, fun d => objconv_topal_unused⟩
  rw [objconv_pal hk] at h0 ⊢
  refine (objconv_topal_given hk h0 i).trans ?_
  rw [colourWord_of_lutv hv, palColourIndex_slotPal]

/-- Settles O19: the rank depends on the palette only. -/
theorem sharedPaletteSharedSlot : Obligations.SharedPaletteSharedSlot := by
  intro s t j k ht hj hk hp
  cases ht
  rw [objconv_pal hj, objconv_pal hk, givenSlot, givenSlot, hp]

/-- Settles O20: the slots in use are those handed out, 1 to PCNT at the end of the scan. -/
theorem paletteSlotsInUseAreAnInterval : Obligations.PaletteSlotsInUseAreAnInterval := by
  intro s t ht
  cases ht
  refine ⟨(objScan s).pcnt.toNat, Nat.le_of_lt_succ (objScan s).pcnt.isLt, fun d hd => ?_⟩
  rw [← exists_givenSlot_iff s hd]
  constructor
  · rintro ⟨k, hk⟩
    cases hl : liveSlot s k
    · rw [(objconv_dead hl).1] at hk
      exact absurd hk.symm hd
    · exact ⟨k, hl, (objconv_pal hl).symm.trans hk⟩
  · rintro ⟨k, hl, hk⟩
    exact ⟨k, (objconv_pal hl).trans hk⟩

/-! ## Two executions compared -/

/-- OBJCONV sees the same objects in both states: the same ones are live, and they are converted alike. -/
structure SameObjects (s t : State) : Prop where
  live : ∀ k, liveSlot t k = liveSlot s k
  pal : ∀ k, slotPal t k = slotPal s k
  entry : ∀ k d, liveEntry t.cfg (objEntry t k) k d = liveEntry s.cfg (objEntry s k) k d
  block : ∀ k, t.sotile.read (objTile (objEntry t k)).toFin = s.sotile.read (objTile (objEntry s k)).toFin

theorem sameObjects_of_inputs {s t : State} (hcfg : t.cfg = s.cfg) (hobj : t.sobj = s.sobj) (htile : t.sotile = s.sotile) :
    SameObjects s t := by
  have he : ∀ k, objEntry t k = objEntry s k := fun k => by simp only [objEntry, hobj]
  refine ⟨fun k => ?_, fun k => ?_, fun k d => ?_, fun k => ?_⟩ <;> simp only [liveSlot, slotPal, hcfg, htile, he]

theorem SameObjects.toam {s t : State} (h : SameObjects s t) : (objconv t).toam = (objconv s).toam := by
  refine Table.ext_read fun k => ?_
  cases hl : liveSlot s k
  · rw [(objconv_dead hl).1, (objconv_dead ((h.live k).trans hl)).1]
  · rw [(objconv_live hl).1, (objconv_live ((h.live k).trans hl)).1, givenSlot_congr h.live h.pal, h.entry]

theorem SameObjects.tstage {s t : State} (h : SameObjects s t)
    (hdead : ∀ k, liveSlot s k = false → t.tstage.read k = s.tstage.read k) : (objconv t).tstage = (objconv s).tstage := by
  refine Table.ext_read fun k => ?_
  cases hl : liveSlot s k
  · rw [(objconv_dead hl).2, (objconv_dead ((h.live k).trans hl)).2, hdead k hl]
  · rw [(objconv_live hl).2, (objconv_live ((h.live k).trans hl)).2, h.block]

/-- The end of the operation leaves free values in CMAP and PCNT, and the counter one higher (rule R155, log 1). -/
theorem objconv_end (s : State) :
    (objconv s).cmap = .tabulate (fun p => Config.unspecified 4 s.tick (.cmap p)) ∧
    (objconv s).pcnt = Config.unspecified 4 s.tick .pcnt ∧ (objconv s).tick = s.tick + 1 := by
  have htick : (objScan s).tick = s.tick := by
    rw [objScan, scan_frame]
    rfl
  simp only [objconv, objEnd, State.nextTick, htick, and_self]

/-- No field of an object has bit 29 in it (rule R88, decision D8). -/
theorem objEntry_fields_congr {e e' : Long} (h : ∀ j : Nat, j ≠ 29 → e'.getLsbD j = e.getLsbD j) :
    objHflip e' = objHflip e ∧ objVflip e' = objVflip e ∧ objPal e' = objPal e ∧ objTile e' = objTile e ∧
    objX e' = objX e ∧ objY e' = objY e :=
  ⟨h 31 (by decide), h 30 (by decide), extractLsb'_congr fun j _ _ => h j (by omega),
    extractLsb'_congr fun j _ _ => h j (by omega), extractLsb'_congr fun j _ _ => h j (by omega),
    extractLsb'_congr fun j _ _ => h j (by omega)⟩

/-- Objects that differ in unused bits only are the same to OBJCONV (rules R146, R158). -/
theorem sameObjects_of_used_bits (s : State) (sobj' : Table Long 64)
    (h : ∀ k : Fin 64, 16 ≤ k.val → ∀ j : Nat, j ≠ 29 → (sobj'.read k).getLsbD j = (s.sobj.read k).getLsbD j) :
    SameObjects s { s with sobj := sobj' } := by
  have hf := fun k : Fin 48 => objEntry_fields_congr (h (srcSlot k) (Nat.le_add_left 16 k.val))
  refine ⟨fun k => ?_, fun k => ?_, fun k d => ?_, fun k => ?_⟩ <;>
    obtain ⟨hh, hv, hp, ht, hx, hy⟩ := hf k
  · rw [Bool.eq_iff_iff, liveSlot, liveSlot, live_iff, live_iff]
    simp only [objEntry, ht, hy]
  · simp only [slotPal, objEntry, hp]
  · simp only [liveEntry, objXt, objYt, objEntry, hh, hv, hx, hy]
  · simp only [objEntry, ht]

/-- Settles O21: the two runs see the same objects, and publish from the same colours. -/
theorem unusedObjectBitsHaveNoEffect : Obligations.UnusedObjectBitsHaveNoEffect := by
  intro s sobj' h
  have hsame := sameObjects_of_used_bits s sobj' h
  have htopal : (objconv { s with sobj := sobj' }).topal = (objconv s).topal :=
    objconv_topal_congr hsame.live hsame.pal (fun _ _ _ => rfl) (fun _ _ _ => rfl) fun _ _ => rfl
  obtain ⟨hcmap, hpcnt, htick⟩ := objconv_end s
  obtain ⟨hcmap', hpcnt', htick'⟩ := objconv_end { s with sobj := sobj' }
  refine ⟨objconv s, rfl, congrArg Host.Outcome.next ?_⟩
  rw [objconv_frame { s with sobj := sobj' }, objconv_frame s, htopal, hsame.toam, hsame.tstage fun _ _ => rfl,
    hcmap, hpcnt, htick, hcmap', hpcnt', htick']

/-- Settles O22: the second run sees the same objects, and what it does not write the first has left alone. -/
theorem objconvAgainChangesNoOutput : Obligations.ObjconvAgainChangesNoOutput := by
  intro s t u hv ht hu
  cases ht
  cases hu
  obtain ⟨hspal, hsobj, hsotile, hlut, hlutv, hcfg⟩ := objconv_same s
  have hsame : SameObjects s (objconv s) := sameObjects_of_inputs hcfg hsobj hsotile
  refine ⟨hsame.toam, hsame.tstage fun k hk => (objconv_dead hk).2, ?_⟩
  refine objconv_topal_congr hsame.live hsame.pal (fun p i site => ?_) (objconv_topal_upper s)
    fun d hd => objconv_topal_other hd
  rw [colourWord_of_lutv (hlutv.trans hv), colourWord_of_lutv hv, hlut, hspal]

/-- Settles O23: LUTV is read for the colours only. -/
theorem objconvWithoutLutDiffersInColoursOnly : Obligations.ObjconvWithoutLutDiffersInColoursOnly := by
  intro s hv
  have hsame : SameObjects s { s with lutv := true } := sameObjects_of_inputs rfl rfl rfl
  obtain ⟨hcmap, hpcnt, htick⟩ := objconv_end s
  obtain ⟨hcmap', hpcnt', htick'⟩ := objconv_end { s with lutv := true }
  refine ⟨objconv s, objconv { s with lutv := true }, rfl, rfl, ?_, fun k hk h0 i => ?_, fun d => objconv_topal_unused⟩
  · rw [objconv_frame { s with lutv := true }, objconv_frame s, hsame.toam, hsame.tstage fun _ _ => rfl,
      hcmap, hpcnt, htick, hcmap', hpcnt', htick']
  · rw [objconv_pal hk] at h0 ⊢
    refine (objconv_topal_given hk h0 i).trans ?_
    rw [colourWord_of_not_lutv hv]

/-! ## FRAME (spec/44_frame.md) -/

/-- Settles O30. -/
theorem frameIsPalconvThenObjconv : Obligations.FrameIsPalconvThenObjconv :=
  fun s => ⟨palconv s, objconv (palconv s), rfl, rfl, rfl⟩

/-- OBJCONV neither reads nor writes TCT, the maps and the engines' progress (rule R157). -/
theorem objconv_unaware (s : State) (tc : Table Word 256) (ma mb : Table Word 4096) (fe : FrameEngine) (pe : PfEngine) :
    objconv { s with tct := tc, mapa := ma, mapb := mb, frameEngine := fe, pfEngine := pe } =
      { objconv s with tct := tc, mapa := ma, mapb := mb, frameEngine := fe, pfEngine := pe } :=
  congrArg objEnd (scan_unaware (fun u => { u with tct := tc, mapa := ma, mapb := mb, frameEngine := fe, pfEngine := pe })
    (fun u t => objSlot_unaware u t tc ma mb fe pe) slots (objStart s))

/-- With the LUT built PALCONV reads nothing that OBJCONV writes (rule R220). -/
theorem palWord_objconv {s : State} (hv : s.lutv = true) : palWord (objconv s) = palWord s := by
  obtain ⟨hspal, -, -, hlut, hlutv, -⟩ := objconv_same s
  funext i
  rw [palWord, palWord, colourWord_of_lutv (hlutv.trans hv), colourWord_of_lutv hv, hlut, hspal]

/-- Settles O31: with the LUT built PALCONV is a replacement of TCT, which commutes with OBJCONV. -/
theorem frameOrderIsNotObservable : Obligations.FrameOrderIsNotObservable := by
  intro s hv
  refine ⟨objconv s, palconv (objconv s), rfl, rfl, congrArg Host.Outcome.next ?_⟩
  obtain ⟨-, -, -, -, hlutv, -⟩ := objconv_same s
  calc objconv (palconv s)
    _ = objconv { s with tct := .tabulate (palWord s) } := by rw [palconv_of_lutv hv]
    _ = { objconv s with
          tct := .tabulate (palWord s), mapa := s.mapa, mapb := s.mapb, frameEngine := s.frameEngine
          pfEngine := s.pfEngine } := objconv_unaware s _ _ _ _ _
    _ = { objconv s with tct := .tabulate (palWord s) } := by rw [objconv_frame]
    _ = palconv (objconv s) := by rw [palconv_of_lutv (hlutv.trans hv), palWord_objconv hv]

end Sys2Proof.Machine
end

section
/-! PROOF. The engines' turns (20_memory.md rules R60, R61, R63). -/

namespace Sys2Proof.Machine

/-! ## The loops of the frame engine, whole -/

theorem setFrameEngine_self {s : State} {e : FrameEngine} (h : s.frameEngine = e) : s.setFrameEngine e = s := by
  subst h
  rfl

/-- The elements below `n` are written, and now element `n`. -/
theorem filled_write_last {α : Type} {m : Nat} (t : Table α m) (f : Fin m → α) {n : Nat} (hn : n < m) :
    (filled t f 0 n).write ⟨n, hn⟩ (f ⟨n, hn⟩) = filled t f 0 (n + 1) := by
  refine Table.ext_read fun b => ?_
  simp only [filled, Table.read_tabulate, Table.read_write, Fin.ext_iff, Nat.zero_le, true_and, Nat.zero_add]
  by_cases hb : n = b.val
  · obtain rfl : (⟨n, hn⟩ : Fin m) = b := Fin.ext hb
    simp
  · rw [if_neg hb]
    congr 1
    exact propext (by omega)

/-- LUTINIT's 256 turns (40_lut.md rule R113). -/
theorem lutinit_loop (s : State) :
    frameTurns 256 (beginOp .lutinit s) = (lutinit s).setFrameEngine .idle := by
  have h := lutinit_turns 255 (beginOp .lutinit s) 0 rfl (by decide)
  have hlast := filled_write_last s.lut (fun b => lutword (BitVec.ofFin b)) (show 255 < 256 by decide)
  rw [filled_all] at hlast
  rw [frameTurns_last, h, frameWork_lutinit rfl, afterEntry, dif_neg (by decide)]
  simp only [lutinit, ← hlast]
  rfl

/-- What the loop over 256 entries does in an operation whose engine stands at `c i` for entry `i`. -/
theorem palconv_loop (c : Fin 256 → FrameEngine) (done : State → State)
    (hc : ∀ i s, s.frameEngine = c i → ∀ h : i.val + 1 < 256,
      frameWork s = (palEntry i s).setFrameEngine (c ⟨i.val + 1, h⟩))
    (hdone : ∀ s, s.frameEngine = c 255 → frameWork s = done (palEntry 255 s)) (s : State) :
    frameTurns 256 (s.setFrameEngine (c 0)) = done { s with tct := .tabulate (palWord s), frameEngine := c 255 } := by
  have h : frameTurns 255 (s.setFrameEngine (c 0)) =
      { s with tct := filled s.tct (palWord s) 0 255, frameEngine := c 255 } :=
    palconv_turns c hc 255 (s.setFrameEngine (c 0)) 0 rfl (by decide)
  have hlast := filled_write_last s.tct (palWord s) (show 255 < 256 by decide)
  rw [filled_all] at hlast
  rw [frameTurns_last, h, hdone _ rfl, ← hlast]
  rfl

/-- The end of PALCONV is the same wherever the engine stands. -/
theorem palEnd_setFrameEngine (s : State) (e e' : FrameEngine) :
    (palEnd { s with tct := .tabulate (palWord s), frameEngine := e }).setFrameEngine e' =
      (palconv s).setFrameEngine e' := by
  simp only [palconv, palEnd]
  split <;> rfl

theorem frameWork_palconv_next (i : Fin 256) (s : State) (hf : s.frameEngine = .palconv i []) (h : i.val + 1 < 256) :
    frameWork s = (palEntry i s).setFrameEngine (.palconv ⟨i.val + 1, h⟩ []) := by
  rw [frameWork_palconv hf, palTurn_nil, afterEntry, dif_pos h]

theorem frameWork_framePal_next (i : Fin 256) (s : State) (hf : s.frameEngine = .framePal i []) (h : i.val + 1 < 256) :
    frameWork s = (palEntry i s).setFrameEngine (.framePal ⟨i.val + 1, h⟩ []) := by
  rw [frameWork_framePal hf, palTurn_nil, afterEntry, dif_pos h]

/-- PALCONV's 256 turns (41_palette.md rule R130). -/
theorem palconv_op_loop (s : State) : frameTurns 256 (beginOp .palconv s) = (palconv s).setFrameEngine .idle := by
  refine (palconv_loop (.palconv · []) (fun u => (palEnd u).setFrameEngine .idle) frameWork_palconv_next
    (fun u hu => ?_) s).trans (palEnd_setFrameEngine s _ _)
  rw [frameWork_palconv hu, palTurn_nil, afterEntry, dif_neg (by decide)]

/-- FRAME's first 256 turns end where OBJCONV begins after PALCONV (44_frame.md rule R220). -/
theorem frame_palconv_loop (s : State) :
    frameTurns 256 (beginOp .frame s) = (objStart (palconv s)).setFrameEngine (.frameObj 0 []) := by
  refine (palconv_loop (.framePal · []) (fun u => (objStart (palEnd u)).setFrameEngine (.frameObj 0 []))
    frameWork_framePal_next (fun u hu => ?_) s).trans (congrArg objStart (palEnd_setFrameEngine s _ _))
  rw [frameWork_framePal hu, palTurn_nil, afterEntry, dif_neg (by decide)]

/-- The slots before slot `n + 1` are those before slot `n`, and slot `n` (42_object.md rule R143). -/
theorem slots_take_succ {n : Nat} (hn : n < 48) : slots.take (n + 1) = slots.take n ++ [⟨n, hn⟩] := by
  unfold slots
  rw [List.take_add_one, List.getElem?_eq_getElem (by simpa using hn)]
  simp

theorem slots_take_all : slots.take 48 = slots := by
  unfold slots
  exact List.take_of_length_le (by simp)

/-- Where the frame engine stands is not noticed by a slot's turn. -/
theorem objSlot_setFrameEngine (s : State) (t : Fin 48) (e : FrameEngine) :
    objSlot (s.setFrameEngine e) t = (objSlot s t).setFrameEngine e := by
  refine (objSlot_unaware s t s.tct s.mapa s.mapb e s.pfEngine).trans ?_
  rw [objSlot_frame]
  rfl

/-- OBJCONV, alone or as the second part of FRAME, after `n` turns of its scan (42_object.md rule R154). -/
theorem objconv_turns (c : Fin 48 → FrameEngine)
    (hc : ∀ t s, s.frameEngine = c t → ∀ h : t.val + 1 < 48,
      frameWork s = (objSlot s t).setFrameEngine (c ⟨t.val + 1, h⟩))
    (s : State) {n : Nat} (hn : n < 48) :
    frameTurns n (s.setFrameEngine (c 0)) = ((slots.take n).foldl objSlot s).setFrameEngine (c ⟨n, hn⟩) := by
  induction n with
  | zero => rfl
  | succ n ih =>
    rw [frameTurns_last, ih (by omega), hc ⟨n, by omega⟩ _ rfl hn, objSlot_setFrameEngine, slots_take_succ (by omega),
      List.foldl_append]
    rfl

/-- The 48 turns of OBJCONV's scan, and its end. -/
theorem objconv_loop (c : Fin 48 → FrameEngine)
    (hc : ∀ t s, s.frameEngine = c t → ∀ h : t.val + 1 < 48,
      frameWork s = (objSlot s t).setFrameEngine (c ⟨t.val + 1, h⟩))
    (hdone : ∀ s, s.frameEngine = c 47 → frameWork s = (objEnd (objSlot s 47)).setFrameEngine .idle) (s : State) :
    frameTurns 48 ((objStart s).setFrameEngine (c 0)) = (objconv s).setFrameEngine .idle := by
  have hlist : slots = slots.take 47 ++ [47] := slots_take_all.symm.trans (slots_take_succ (by decide))
  have hall : objScan s = objSlot ((slots.take 47).foldl objSlot (objStart s)) 47 :=
    (congrArg (List.foldl objSlot (objStart s)) hlist).trans List.foldl_append
  rw [frameTurns_last, objconv_turns c hc (objStart s) (show 47 < 48 by decide), hdone _ rfl, objconv, hall,
    objSlot_setFrameEngine]
  rfl

theorem frameWork_objconv_next (t : Fin 48) (s : State) (hf : s.frameEngine = .objconv t []) (h : t.val + 1 < 48) :
    frameWork s = (objSlot s t).setFrameEngine (.objconv ⟨t.val + 1, h⟩ []) := by
  rw [frameWork_objconv hf, objTurn_nil, afterSlot, dif_pos h]

theorem frameWork_frameObj_next (t : Fin 48) (s : State) (hf : s.frameEngine = .frameObj t []) (h : t.val + 1 < 48) :
    frameWork s = (objSlot s t).setFrameEngine (.frameObj ⟨t.val + 1, h⟩ []) := by
  rw [frameWork_frameObj hf, objTurn_nil, afterSlot, dif_pos h]

/-- OBJCONV's 48 turns. -/
theorem objconv_op_loop (s : State) : frameTurns 48 (beginOp .objconv s) = (objconv s).setFrameEngine .idle := by
  refine objconv_loop (.objconv · []) frameWork_objconv_next (fun u hu => ?_) s
  rw [frameWork_objconv hu, objTurn_nil, afterSlot, dif_neg (by decide)]

/-- FRAME's last 48 turns. -/
theorem frame_objconv_loop (s : State) :
    frameTurns 48 ((objStart s).setFrameEngine (.frameObj 0 [])) = (objconv s).setFrameEngine .idle := by
  refine objconv_loop (.frameObj · []) frameWork_frameObj_next (fun u hu => ?_) s
  rw [frameWork_frameObj hu, objTurn_nil, afterSlot, dif_neg (by decide)]

/-- FRAME's 304 turns. -/
theorem frame_op_loop (s : State) : frameTurns 304 (beginOp .frame s) = (objconv (palconv s)).setFrameEngine .idle := by
  rw [show 304 = 256 + 48 from rfl, frameTurns_add, frame_palconv_loop, frame_objconv_loop]

/-- A frame operation done by its engine's turns ends where the whole operation does, with the engine idle (rule R60). -/
theorem exec_eq_frameTurns {i : Instr} (h : engineOf i = .frame) {s t : State} (he : exec i s = .next t) :
    frameTurns (turnsOf i) (beginOp i s) = t.setFrameEngine .idle := by
  cases i with
  | lutinit => cases he; exact lutinit_loop s
  | palconv => cases he; exact palconv_op_loop s
  | objconv => cases he; exact objconv_op_loop s
  | pfwrite addr data => cases h
  | frame => cases he; exact frame_op_loop s

/-! ## Who writes what (10_state.md rule R38) -/

/-- A frame operation leaves the inputs, the maps, the engines and the configuration alone. -/
theorem exec_frame_same {i : Instr} (h : engineOf i = .frame) {s t : State} (he : exec i s = .next t) :
    t.spal = s.spal ∧ t.sobj = s.sobj ∧ t.sotile = s.sotile ∧ t.mapa = s.mapa ∧ t.mapb = s.mapb ∧
    t.frameEngine = s.frameEngine ∧ t.pfEngine = s.pfEngine ∧ t.cfg = s.cfg := by
  cases i with
  | lutinit => cases he; exact ⟨rfl, rfl, rfl, rfl, rfl, rfl, rfl, rfl⟩
  | palconv => cases he; rw [palconv_frame]; exact ⟨rfl, rfl, rfl, rfl, rfl, rfl, rfl, rfl⟩
  | objconv => cases he; rw [objconv_frame]; exact ⟨rfl, rfl, rfl, rfl, rfl, rfl, rfl, rfl⟩
  | pfwrite addr data => cases h
  | frame => cases he; rw [objconv_frame, palconv_frame]; exact ⟨rfl, rfl, rfl, rfl, rfl, rfl, rfl, rfl⟩

/-- Settles O52. -/
theorem operationsWriteOnlyWhatTheyOwn : Obligations.OperationsWriteOnlyWhatTheyOwn := by
  intro i s t he
  cases hi : engineOf i
  · obtain ⟨hspal, hsobj, hsotile, hmapa, hmapb, -⟩ := exec_frame_same hi he
    exact ⟨⟨hspal, hsobj, hsotile⟩, fun _ => ⟨hmapa, hmapb⟩, nofun⟩
  · cases i with
    | pfwrite addr data => cases he; exact ⟨⟨rfl, rfl, rfl⟩, nofun, fun _ => rfl⟩
    | _ => cases hi

/-- Settles O32: the loops of the frame engine, and the two writes of the playfield engine. -/
theorem engineTurnsEqualTheOperation : Obligations.EngineTurnsEqualTheOperation := by
  intro i s hf hp
  have frameOp : engineOf i = .frame → exec i s = .next (frameTurns (turnsOf i) (beginOp i s)) := by
    intro hi
    obtain ⟨t, he⟩ := exec_completes i s
    obtain ⟨-, -, -, -, -, hfe, -⟩ := exec_frame_same hi he
    rw [exec_eq_frameTurns hi he, setFrameEngine_self (hfe.trans hf), he]
  cases i with
  | pfwrite addr data => exact congrArg Host.Outcome.next (pfwrite_eq_turns hp addr data)
  | _ => exact frameOp rfl

/-! ## The two engines together (20_memory.md rule R61) -/

/-- What a playfield turn writes depends on the maps, its own progress and the configuration only. -/
theorem pfWork_congr {s t : State} (ha : t.mapa = s.mapa) (hb : t.mapb = s.mapb) (hp : t.pfEngine = s.pfEngine)
    (hc : t.cfg = s.cfg) :
    (pfWork t).mapa = (pfWork s).mapa ∧ (pfWork t).mapb = (pfWork s).mapb ∧
      (pfWork t).pfEngine = (pfWork s).pfEngine := by
  simp only [pfWork, hp]
  split <;> simp [pfWriteA, pfWriteB, ha, hb, hc, hp]

/-- A turn of the one engine and a turn of the other may be exchanged. -/
theorem frameWork_pfWork_commute : Function.Commute frameWork pfWork := by
  intro s
  obtain ⟨hmapa, hmapb, hpf, hcfg, -⟩ := frameWork_same s
  obtain ⟨ha, hb, hp⟩ := pfWork_congr hmapa hmapb hpf hcfg
  rw [pfWork_frame s, frameWork_unaware, pfWork_frame (frameWork s), ha, hb, hp]

theorem frameTurns_eq_iterate (n : Nat) : frameTurns n = frameWork^[n] := by
  induction n with
  | zero => rfl
  | succ n ih => funext s; rw [frameTurns, ih, Function.iterate_succ_apply]

theorem pfTurns_eq_iterate (n : Nat) : pfTurns n = pfWork^[n] := by
  induction n with
  | zero => rfl
  | succ n ih => funext s; rw [pfTurns, ih, Function.iterate_succ_apply]

theorem frameTurns_pfTurns_commute (m n : Nat) : Function.Commute (frameTurns m) (pfTurns n) := by
  rw [frameTurns_eq_iterate, pfTurns_eq_iterate]
  exact frameWork_pfWork_commute.iterate_iterate m n

/-- An interleaving is the frame engine's turns and then the playfield engine's. -/
theorem interleave_eq (l : List Engine) (s : State) :
    interleave l s = pfTurns (l.count .playfield) (frameTurns (l.count .frame) s) := by
  induction l generalizing s with
  | nil => rfl
  | cons e l ih =>
    cases e with
    | frame =>
      rw [interleave, ih, List.count_cons_self, List.count_cons_of_ne (by decide), frameTurns]
    | playfield =>
      rw [interleave, ih, List.count_cons_self, List.count_cons_of_ne (by decide), pfTurns]
      exact congrArg _ (frameTurns_pfTurns_commute _ 1 s)

/-- Settles O33: the frame engine's turns first, and then exchanged with the playfield engine's. -/
theorem everyInterleavingIsSequential : Obligations.EveryInterleavingIsSequential :=
  fun l s => ⟨interleave_eq l s, (interleave_eq l s).trans (frameTurns_pfTurns_commute _ _ s).symm⟩

/-- A frame operation does not notice the maps (rule R61). -/
theorem exec_frame_unaware {i : Instr} (h : engineOf i = .frame) {s t : State} (he : exec i s = .next t)
    (ma mb : Table Word 4096) : exec i { s with mapa := ma, mapb := mb } = .next { t with mapa := ma, mapb := mb } := by
  have hpal : palconv { s with mapa := ma, mapb := mb } = { palconv s with mapa := ma, mapb := mb } := by
    simp only [palconv, palEnd]
    split <;> rfl
  have hobj : ∀ u : State, objconv { u with mapa := ma, mapb := mb } = { objconv u with mapa := ma, mapb := mb } := by
    intro u
    have hu := objconv_unaware u u.tct ma mb u.frameEngine u.pfEngine
    rw [objconv_frame u] at hu ⊢
    exact hu
  cases i with
  | lutinit => cases he; rfl
  | palconv => cases he; exact congrArg Host.Outcome.next hpal
  | objconv => cases he; exact congrArg Host.Outcome.next (hobj s)
  | pfwrite addr data => cases h
  | frame =>
    cases he
    refine congrArg Host.Outcome.next ?_
    rw [hpal, hobj]

/-- Settles O34: the frame operation leaves the map words and the configuration the write is computed from. -/
theorem pfwriteCommutesWithFrameOperations : Obligations.PfwriteCommutesWithFrameOperations := by
  intro i addr data s hi
  obtain ⟨t, he⟩ := exec_completes i s
  obtain ⟨-, -, -, hmapa, hmapb, -, -, hcfg⟩ := exec_frame_same hi he
  refine ⟨t, pfwrite addr data s, pfwrite addr data t, he, rfl, rfl, ?_⟩
  rw [pfwrite_frame addr data s, exec_frame_unaware hi he, pfwrite_frame addr data t, hmapa, hmapb, hcfg]

end Sys2Proof.Machine
end

section
/-! PROOF. What a reader sees between the turns of a frame operation (20_memory.md rule R63). -/

namespace Sys2Proof.Machine

/-- The output tables as they were. -/
theorem seenDuring_before {before after view : State} (htct : view.tct = before.tct) (htopal : view.topal = before.topal)
    (htstage : view.tstage = before.tstage) (htoam : view.toam = before.toam) (hmapa : view.mapa = before.mapa)
    (hmapb : view.mapb = before.mapb) : SeenDuring before after view := by
  refine ⟨fun i => .inl ?_, fun d i => .inl ?_, fun t => .inl ?_, fun t => .inl ?_, fun i => .inl ?_, fun i => .inl ?_⟩
  · rw [htct]
  · rw [htopal]
  · rw [htstage]
  · rw [htoam]
  · rw [hmapa]
  · rw [hmapb]

/-- The operation is over, or its end has yet to move the engine. -/
theorem seenDuring_after (before after : State) (e : FrameEngine) : SeenDuring before after (after.setFrameEngine e) :=
  ⟨fun _ => .inr rfl, fun _ _ => .inr rfl, fun _ => .inr rfl, fun _ => .inr rfl, fun _ => .inr rfl, fun _ => .inr rfl⟩

/-- A table of which some elements are written has old and new elements. -/
theorem filled_old_or_new {α : Type} {m : Nat} (t : Table α m) (f : Fin m → α) (i n : Nat) (b : Fin m) :
    (filled t f i n).read b = t.read b ∨ (filled t f i n).read b = (Table.tabulate f).read b := by
  rw [filled, Table.read_tabulate, Table.read_tabulate]
  split
  · exact .inr rfl
  · exact .inl rfl

/-- In the middle of the loop over TCT. -/
theorem seenDuring_filled {s t view : State} {n : Nat} {e : FrameEngine}
    (hview : view = { s with tct := filled s.tct (palWord s) 0 n, frameEngine := e })
    (ht : t.tct = .tabulate (palWord s)) : SeenDuring s t view := by
  subst hview
  refine ⟨fun i => ?_, fun _ _ => .inl rfl, fun _ => .inl rfl, fun _ => .inl rfl, fun _ => .inl rfl, fun _ => .inl rfl⟩
  rw [ht]
  exact filled_old_or_new _ _ _ _ _

/-- In the middle of the scan over TOPAL, TSTAGE and TOAM: a slot visited has its final entry, a palette slot handed out its
final colours, and the others stand as they stood. -/
theorem scan_old_or_new (s : State) {l r : List (Fin 48)} (hsplit : slots = l ++ r) :
    (∀ d, (l.foldl objSlot (objStart s)).topal.read d = s.topal.read d ∨
      (l.foldl objSlot (objStart s)).topal.read d = (objconv s).topal.read d) ∧
    (∀ k, (l.foldl objSlot (objStart s)).tstage.read k = s.tstage.read k ∨
      (l.foldl objSlot (objStart s)).tstage.read k = (objconv s).tstage.read k) ∧
    (∀ k, (l.foldl objSlot (objStart s)).toam.read k = s.toam.read k ∨
      (l.foldl objSlot (objStart s)).toam.read k = (objconv s).toam.read k) := by
  have hend : objconv s = objEnd (r.foldl objSlot (l.foldl objSlot (objStart s))) := by
    rw [objconv, objScan, hsplit, List.foldl_append]
  have hnodup : ∀ k, k ∈ l → k ∉ r := fun k hl hr =>
    (List.nodup_append.mp (hsplit ▸ slots_nodup)).2.2 k hl k hr rfl
  rw [hend]
  refine ⟨fun d => ?_, fun k => ?_, fun k => ?_⟩
  · obtain ⟨-, hkept, -⟩ := scan_topal r (l.foldl objSlot (objStart s))
    obtain ⟨-, -, huntouched⟩ := scan_topal l (objStart s)
    by_cases hd : d.val ≤ (l.foldl objSlot (objStart s)).pcnt.toNat
    · exact .inr (hkept d hd).symm
    · exact .inl (huntouched d (by omega))
  · by_cases hk : k ∈ l
    · exact .inr (scan_untouched r _ (hnodup k hk)).2.symm
    · exact .inl (scan_untouched l (objStart s) hk).2
  · by_cases hk : k ∈ l
    · exact .inr (scan_untouched r _ (hnodup k hk)).1.symm
    · exact .inl (scan_untouched l (objStart s) hk).1

/-- In the middle of the scan, before which `s` had become `u` in TCT only. -/
theorem seenDuring_scan {s u : State} (htct : ∀ i, u.tct.read i = s.tct.read i ∨ u.tct.read i = (objconv u).tct.read i)
    (hu : u = { s with tct := u.tct, tick := u.tick }) (n : Nat) (e : FrameEngine) :
    SeenDuring s (objconv u) (((slots.take n).foldl objSlot (objStart u)).setFrameEngine e) := by
  obtain ⟨htopal, htstage, htoam⟩ := scan_old_or_new u (List.take_append_drop n slots).symm
  have hs : u.topal = s.topal ∧ u.tstage = s.tstage ∧ u.toam = s.toam ∧ u.mapa = s.mapa ∧ u.mapb = s.mapb := by
    rw [hu]
    exact ⟨rfl, rfl, rfl, rfl, rfl⟩
  obtain ⟨hs1, hs2, hs3, hs4, hs5⟩ := hs
  have hframe := scan_frame (slots.take n) (objStart u)
  rw [hs1] at htopal
  rw [hs2] at htstage
  rw [hs3] at htoam
  refine ⟨?_, fun d i => ?_, htstage, htoam, fun i => .inl ?_, fun i => .inl ?_⟩
  · rw [hframe]
    exact htct
  · exact (htopal d).imp (congrArg (Table.read · i)) (congrArg (Table.read · i))
  · rw [hframe, ← hs4]
    rfl
  · rw [hframe, ← hs5]
    rfl

/-- Settles O35: by the place the engine has reached; the last turn is `exec_eq_frameTurns`. -/
theorem readerSeesOldOrNewElements : Obligations.ReaderSeesOldOrNewElements := by
  intro i s t k hi _ he hk
  rcases Nat.lt_or_eq_of_le hk with hlt | rfl
  case inr =>
    rw [exec_eq_frameTurns hi he]
    exact seenDuring_after s t _
  case inl =>
    cases i with
    | lutinit =>
      rw [lutinit_turns k (beginOp .lutinit s) 0 rfl (by simpa [turnsOf] using hlt)]
      exact seenDuring_before rfl rfl rfl rfl rfl rfl
    | palconv =>
      cases he
      exact seenDuring_filled (palconv_turns (.palconv · []) frameWork_palconv_next k (beginOp .palconv s) 0 rfl
        (by simpa [turnsOf] using hlt)) (by rw [palconv_frame])
    | objconv =>
      cases he
      have hturns := objconv_turns (.objconv · []) frameWork_objconv_next (objStart s) hlt
      rw [show beginOp .objconv s = (objStart s).setFrameEngine (.objconv 0 []) from rfl, hturns]
      exact seenDuring_scan (fun _ => .inl rfl) rfl k _
    | pfwrite addr data => cases hi
    | frame =>
      cases he
      by_cases hpal : k < 256
      · exact seenDuring_filled (palconv_turns (.framePal · []) frameWork_framePal_next k (beginOp .frame s) 0 rfl
          (by simpa using hpal)) (by rw [objconv_frame, palconv_frame])
      · obtain ⟨n, rfl⟩ := Nat.exists_eq_add_of_le (Nat.le_of_not_lt hpal)
        have hn : n < 48 := by
          simp only [turnsOf] at hlt
          omega
        have hturns := objconv_turns (.frameObj · []) frameWork_frameObj_next (objStart (palconv s)) hn
        rw [frameTurns_add, frame_palconv_loop, hturns]
        refine seenDuring_scan (fun _ => .inr ?_) (palconv_frame s ▸ rfl) n _
        rw [objconv_frame]

end Sys2Proof.Machine
end

section
/-! PROOF. Operations in progress come to their end (44_frame.md rule R222; 70_reset_and_hazards.md rule R261). -/

namespace Sys2Proof.Machine

/-- How many turns the frame engine's operation still takes. -/
def frameTurnsLeft : FrameEngine → Nat
  | .idle => 0
  | .lutinit i => 256 - i.val
  | .palconv i _ => 256 - i.val
  | .objconv t _ => 48 - t.val
  | .framePal i _ => 256 - i.val + 48
  | .frameObj t _ => 48 - t.val

/-- How many turns the playfield engine's operation still takes. -/
def pfTurnsLeft : PfEngine → Nat
  | .idle => 0
  | .accepted _ _ => 2
  | .halfway _ _ => 1

theorem frameTurnsLeft_eq_zero {e : FrameEngine} (h : frameTurnsLeft e = 0) : e = .idle := by
  cases e with
  | idle => rfl
  | _ => simp only [frameTurnsLeft] at h; omega

theorem pfTurnsLeft_eq_zero {e : PfEngine} (h : pfTurnsLeft e = 0) : e = .idle := by
  cases e with
  | idle => rfl
  | _ => simp [pfTurnsLeft] at h

/-- At most a whole FRAME and a whole PFWRITE. -/
theorem frameTurnsLeft_le (e : FrameEngine) : frameTurnsLeft e ≤ 304 := by
  cases e <;> simp only [frameTurnsLeft] <;> omega

theorem pfTurnsLeft_le (e : PfEngine) : pfTurnsLeft e ≤ 2 := by
  cases e <;> simp [pfTurnsLeft]

/-- A turn of the frame engine is one fewer to come. -/
theorem frameWork_turnsLeft (s : State) : frameTurnsLeft (frameWork s).frameEngine = frameTurnsLeft s.frameEngine - 1 := by
  cases hf : s.frameEngine with
  | idle => rw [frameWork_idle hf, hf]; rfl
  | lutinit i =>
    rw [frameWork_lutinit hf, afterEntry]
    split <;> simp only [State.setFrameEngine_frameEngine, frameTurnsLeft] <;> omega
  | palconv i old =>
    rw [frameWork_palconv hf, afterEntry]
    split <;> simp only [State.setFrameEngine_frameEngine, frameTurnsLeft] <;> omega
  | objconv t old =>
    rw [frameWork_objconv hf, afterSlot]
    split <;> simp only [State.setFrameEngine_frameEngine, frameTurnsLeft] <;> omega
  | framePal i old =>
    rw [frameWork_framePal hf, afterEntry]
    split <;> simp only [State.setFrameEngine_frameEngine, frameTurnsLeft, Fin.val_zero] <;> omega
  | frameObj t old =>
    rw [frameWork_frameObj hf, afterSlot]
    split <;> simp only [State.setFrameEngine_frameEngine, frameTurnsLeft] <;> omega

/-- A turn of the playfield engine is one fewer to come. -/
theorem pfWork_turnsLeft (s : State) : pfTurnsLeft (pfWork s).pfEngine = pfTurnsLeft s.pfEngine - 1 := by
  cases hp : s.pfEngine <;> simp [pfWork, hp, pfTurnsLeft]

/-- How many turns all that is in progress still takes. -/
def turnsLeft (s : State) : Nat := frameTurnsLeft s.frameEngine + pfTurnsLeft s.pfEngine

/-- Going on is one turn of a busy engine. -/
theorem goOn_turnsLeft (s : State) : turnsLeft (goOn s) = turnsLeft s - 1 := by
  unfold goOn turnsLeft
  split
  case isTrue hp =>
    obtain ⟨-, -, hpf, -⟩ := frameWork_same s
    rw [frameWork_turnsLeft, hpf, hp]
    rfl
  case isFalse hp =>
    have hpos : pfTurnsLeft s.pfEngine ≠ 0 := fun e => hp (pfTurnsLeft_eq_zero e)
    have hfe : (pfWork s).frameEngine = s.frameEngine := by rw [pfWork_frame]
    rw [pfWork_turnsLeft, hfe]
    omega

theorem goOn_inputs (s : State) : (goOn s).inputs = s.inputs := by
  unfold goOn
  split
  · exact (frameWork_same s).2.2.2.2.1
  · rw [pfWork_frame]

/-- With no move pending a step is the engines going on (log 3). -/
theorem step_of_no_inputs {s : State} (h : s.inputs = []) : step s = .next (goOn s) := by
  simp only [step, nextHappening, h]

theorem quiescent_of_no_turnsLeft {s : State} (hi : s.inputs = []) (h : turnsLeft s = 0) : Quiescent s := by
  obtain ⟨hf, hp⟩ := Nat.add_eq_zero_iff.mp h
  exact ⟨hi, frameTurnsLeft_eq_zero hf, pfTurnsLeft_eq_zero hp⟩

/-- As many steps as there are turns left lead to the end of the run. -/
theorem run_turnsLeft {n : Nat} {s : State} (hi : s.inputs = []) (hn : turnsLeft s = n) :
    ∃ t, Host.Core.run Sys2Proof.core n s = .next t ∧ Quiescent t := by
  induction n generalizing s with
  | zero => exact ⟨s, rfl, quiescent_of_no_turnsLeft hi hn⟩
  | succ n ih =>
    obtain ⟨t, hrun, ht⟩ := ih ((goOn_inputs s).trans hi) (by rw [goOn_turnsLeft, hn]; rfl)
    refine ⟨t, ?_, ht⟩
    have hstep : Sys2Proof.core.step s = .next (goOn s) := step_of_no_inputs hi
    simp only [Host.Core.run, hstep]
    exact hrun

/-- Settles O46: the turns left are at most 304 and 2. -/
theorem operationsInProgressComplete : Obligations.OperationsInProgressComplete := by
  intro s hi
  obtain ⟨t, hrun, ht⟩ := run_turnsLeft hi rfl
  exact ⟨turnsLeft s, t, Nat.add_le_add (frameTurnsLeft_le _) (pfTurnsLeft_le _), hrun, ht⟩

end Sys2Proof.Machine
end

section
/-! PROOF. The command port, the host's other moves and reset (spec/70_reset_and_hazards.md). -/

namespace Sys2Proof.Machine

/-- A step takes the oldest pending move (log 3). -/
theorem step_of_inputs {s : State} {m : HostMove} {ms : List HostMove} (h : s.inputs = m :: ms) :
    step s = hostMove m (s.setInputs ms) := by
  simp only [step, nextHappening, h]

/-! ## Commands -/

theorem runCommand_admitted {w : Cmd} {i : Instr} {s : State} (hd : decode w = .ok i) (hb : s.busyFor i = none) :
    runCommand w s = exec i (s.noteIssue i) := by
  simp only [runCommand, hd, hb]

theorem issueCommand_admitted {w : Cmd} {i : Instr} {s : State} (hd : decode w = .ok i) (hb : s.busyFor i = none) :
    issueCommand w s = .next (beginOp i (s.noteIssue i)) := by
  simp only [issueCommand, hd, hb]

/-- The step of a command that is presented, run whole or only started: it completes when its engine is idle. -/
theorem step_of_admitted {s : State} {w : Cmd} {i : Instr} {ms : List HostMove}
    (h : s.inputs = .command w :: ms ∨ s.inputs = .issue w :: ms) (hd : decode w = .ok i) (hb : s.busyFor i = none) :
    ∃ t, step s = .next t := by
  rcases h with h | h <;> rw [step_of_inputs h, hostMove]
  · rw [runCommand_admitted hd (show (s.setInputs ms).busyFor i = none from hb)]
    exact exec_completes _ _
  · exact ⟨_, issueCommand_admitted hd (show (s.setInputs ms).busyFor i = none from hb)⟩

/-- It is refused when its engine is busy (log 4). -/
theorem step_of_refused {s : State} {w : Cmd} {i : Instr} {r : Refusal} {ms : List HostMove}
    (h : s.inputs = .command w :: ms ∨ s.inputs = .issue w :: ms) (hd : decode w = .ok i) (hb : s.busyFor i = some r) :
    step s = .refused r := by
  have hb' : (s.setInputs ms).busyFor i = some r := hb
  rcases h with h | h <;> rw [step_of_inputs h, hostMove]
  · simp only [runCommand, hd, hb']
  · simp only [issueCommand, hd, hb']

/-- Settles O37. -/
theorem stepRunsThePresentedCommand : Obligations.StepRunsThePresentedCommand := by
  intro s w i ms h hd hb
  rw [step_of_inputs h]
  exact runCommand_admitted hd hb

/-- Settles O38. -/
theorem stepStartsAndAdvancesOperations : Obligations.StepStartsAndAdvancesOperations := by
  refine fun s ms => ⟨fun w i h hd hb => ?_, step_of_inputs, step_of_inputs, fun hi hp => ?_, fun hi hp => ?_⟩
  · rw [step_of_inputs h]
    exact issueCommand_admitted hd hb
  · rw [step_of_no_inputs hi, goOn, if_neg hp]
  · rw [step_of_no_inputs hi, goOn, if_pos hp]

/-- Settles O39: the decoder refuses the word, and the port changes nothing. -/
theorem reservedCommandChangesNothing : Obligations.ReservedCommandChangesNothing := by
  intro s w ms h hop
  rcases h with h | h <;> rw [step_of_inputs h, hostMove]
  · simp only [runCommand, decode_reserved hop, reservedCommand]
  · simp only [issueCommand, decode_reserved hop, reservedCommand]

/-- Settles O41: admission asks the operation's own engine only. -/
theorem busyEngineTakesNoCommand : Obligations.BusyEngineTakesNoCommand := by
  refine fun s w i ms h hd => ⟨fun hi hbusy => ?_, fun hi hidle => ?_, fun hi hbusy => ?_, fun hi hidle => ?_⟩
  · exact step_of_refused h hd (by rw [busyFor_frame hi, if_neg hbusy])
  · exact step_of_admitted h hd (by rw [busyFor_frame hi, if_pos hidle])
  · exact step_of_refused h hd (by rw [busyFor_playfield hi, if_neg hbusy])
  · exact step_of_admitted h hd (by rw [busyFor_playfield hi, if_pos hidle])

/-! ## Host writes of the input tables (20_memory.md rule R62) -/

/-- A block of the right length is accepted. -/
theorem hostMove_writeSotile {s : State} {b : Block} (hb : b.length = s.cfg.blockWords) (k : Fin 256) :
    hostMove (.writeSotile k b) s = .next (s.hostWriteSotile k b) :=
  if_pos (decide_eq_true hb)

/-- Settles O42: nothing is remembered, so the write is the write of one element. -/
theorem hostWritesInputsBetweenOperations : Obligations.HostWritesInputsBetweenOperations := by
  intro s ms hf
  have hreads : (s.setInputs ms).readsInputs = false := by
    rcases hf with hf | ⟨j, hf⟩ <;> simp [State.readsInputs, hf]
  refine ⟨fun i v h => ?_, fun k v h => ?_, fun k b h hb => ?_⟩ <;> rw [step_of_inputs h]
  · rw [hostMove, State.hostWriteSpal, noteOverwritten_idle hreads]
    rfl
  · rw [hostMove, State.hostWriteSobj, noteOverwritten_idle hreads]
    rfl
  · rw [hostMove_writeSotile (by exact hb), State.hostWriteSotile, noteOverwritten_idle hreads]
    rfl

/-- Settles O53: the overwritten value is remembered first. -/
theorem hostWriteDuringAnOperationIsRemembered : Obligations.HostWriteDuringAnOperationIsRemembered := by
  intro s ms hidle hlutinit
  have hreads : s.readsInputs = true := by
    unfold State.readsInputs
    split
    case h_1 hf => exact absurd hf hidle
    case h_2 j hf => exact absurd hf (hlutinit j)
    all_goals rfl
  have hreads' : (s.setInputs ms).readsInputs = true := hreads
  refine ⟨fun i v h => ?_, fun k v h => ?_, fun k b h hb => ?_, overwritten_note hreads⟩ <;> rw [step_of_inputs h]
  · rw [hostMove, State.hostWriteSpal, noteOverwritten_reading hreads']
    rfl
  · rw [hostMove, State.hostWriteSobj, noteOverwritten_reading hreads']
    rfl
  · rw [hostMove_writeSotile (by exact hb), State.hostWriteSotile, noteOverwritten_reading hreads']
    rfl

/-! ## Boot and reset -/

/-- Settles O43. -/
theorem bootClearsBothMaps : Obligations.BootClearsBothMaps := by
  refine fun s ms h => ⟨fun hissued => ?_, fun hissued => ?_⟩ <;> rw [step_of_inputs h]
  · exact if_pos hissued
  · refine ⟨clearMaps (s.setInputs ms), if_neg (by simp [hissued]), clearMaps_maps (s.setInputs ms), ?_⟩
    simp only [clearMaps, State.setInputs]

/-- Settles O44. -/
theorem resetEventIdlesTheEngines : Obligations.ResetEventIdlesTheEngines :=
  fun s ms h => ⟨resetEvent (s.setInputs ms), step_of_inputs h, rfl, rfl, rfl, rfl, rfl⟩

/-- Settles O45: with both engines idle there is nothing to go on with. -/
theorem powerOnWaitsForACommand : Obligations.PowerOnWaitsForACommand := by
  refine ⟨rfl, ⟨rfl, rfl, rfl⟩, ?_⟩
  rintro s ⟨hi, hf, hp⟩
  rw [step_of_no_inputs hi, goOn, if_pos hp, frameWork_idle hf]

end Sys2Proof.Machine
end

section
/-! PROOF. What an operation in progress reads when the host has overwritten inputs (20_memory.md rule R62, U4). -/

namespace Sys2Proof.Machine

/-- PALCONV's turn, alone or in FRAME, writes entry `i` from the inputs it sees, and nothing else of TCT. -/
theorem frameWork_tct {s : State} {i : Fin 256} {old : List Overwritten}
    (h : s.frameEngine = .palconv i old ∨ s.frameEngine = .framePal i old) :
    (frameWork s).tct = s.tct.write i (palWord (s.seenFor (.tct i) old) i) := by
  rcases h with h | h
  · rw [frameWork_palconv h, afterEntry, palEnd_frame, palTurn_frame]
    split <;> rfl
  · rw [frameWork_framePal h, afterEntry, palEnd_frame, palTurn_frame]
    split <;> rfl

/-- A turn of the frame engine leaves the input tables alone. -/
theorem frameWork_inputTables (s : State) :
    (frameWork s).spal = s.spal ∧ (frameWork s).sobj = s.sobj ∧ (frameWork s).sotile = s.sotile := by
  obtain ⟨-, -, -, -, -, -, hspal, hsobj, hsotile⟩ := frameWork_same s
  exact ⟨hspal, hsobj, hsotile⟩

/-- Settles O54: the value is the one the turn sees of `SPAL[i]`. -/
theorem palconvReadsOldOrNewInputs : Obligations.PalconvReadsOldOrNewInputs := by
  intro s i old h
  have htct := frameWork_tct h
  refine ⟨⟨(s.seenFor (.tct i) old).spal.read i, seenFor_spal s _ old i, ?_⟩, fun j hj => ?_, frameWork_inputTables s⟩
  · rw [htct, Table.read_write_self]
    rfl
  · rw [htct, Table.read_write_ne _ _ hj.symm]

/-- OBJCONV's turn, alone or in FRAME, is a slot's turn on the inputs it sees. -/
theorem frameWork_slot {s : State} {k : Fin 48} {old : List Overwritten}
    (h : s.frameEngine = .objconv k old ∨ s.frameEngine = .frameObj k old) :
    (frameWork s).toam = (objSlot (s.seenFor (.toam k) old) k).toam ∧
    (frameWork s).tstage = (objSlot (s.seenFor (.toam k) old) k).tstage ∧
    (frameWork s).topal = (objSlot (s.seenFor (.toam k) old) k).topal := by
  rcases h with h | h
  · rw [frameWork_objconv h, afterSlot, objTurn_frame]
    split <;> exact ⟨rfl, rfl, rfl⟩
  · rw [frameWork_frameObj h, afterSlot, objTurn_frame]
    split <;> exact ⟨rfl, rfl, rfl⟩

/-- The slot that rule R147 finds for a palette. -/
theorem resolvePalette_slot (p : BitVec 5) (s : State) :
    (resolvePalette p s).1 =
      if s.cmap.read p.toFin ≠ 0#4 then s.cmap.read p.toFin else if s.pcnt < 15#4 then s.pcnt + 1#4 else 0#4 := by
  rcases resolvePalette_cases p s with ⟨hne, e⟩ | ⟨h0, hlt, e⟩ | ⟨h0, hfull, e⟩
  · rw [e, if_pos hne]
  · rw [e, if_neg (not_not.mpr h0), if_pos hlt]
  · rw [e, if_neg (not_not.mpr h0), if_neg (by rw [hfull]; decide)]

/-- A palette that gets a new slot is published in it (rules R147, R149). -/
theorem objSlot_publishes {s : State} {k : Fin 48} (hl : liveSlot s k = true) (h0 : s.cmap.read (slotPal s k).toFin = 0#4)
    (hlt : s.pcnt < 15#4) (i : Fin 4) :
    ((objSlot s k).topal.read (s.pcnt + 1#4).toFin).read (i.castLE (by omega)) =
      s.colourWord (s.spal.read (palColourIndex (slotPal s k) i)) (.topal (s.pcnt + 1#4).toNat i) := by
  rw [objSlot_live s k hl]
  rcases resolvePalette_cases (slotPal s k) s with ⟨hne, -⟩ | ⟨-, -, e⟩ | ⟨-, hfull, -⟩
  · exact absurd h0 hne
  · rw [e, publish_read, dif_pos ⟨rfl, i.isLt⟩]
    rfl
  · rw [hfull] at hlt
    exact absurd hlt (by decide)

/-- Settles O55: object, block and colours are those the turn sees. -/
theorem objconvReadsOldOrNewInputs : Obligations.ObjconvReadsOldOrNewInputs := by
  intro s k old h
  obtain ⟨htoam, htstage, htopal⟩ := frameWork_slot h
  refine ⟨⟨objEntry (s.seenFor (.toam k) old) k, seenFor_sobj s _ old (srcSlot k), fun hdead => ?_, fun hlive => ?_⟩,
    frameWork_inputTables s⟩
  · rw [htoam, htstage, htopal, objSlot_dead (s.seenFor (.toam k) old) k hdead]
    exact ⟨Table.read_write_self .., rfl, rfl⟩
  · refine ⟨?_, ⟨_, seenFor_sotile s (.toam k) old _, ?_⟩, fun h0 hlt i => ⟨_, seenFor_spal s (.toam k) old _, ?_⟩⟩
    · rw [htoam, objSlot_live (s.seenFor (.toam k) old) k hlive]
      exact (Table.read_write_self ..).trans (congrArg (liveEntry s.cfg _ k) (resolvePalette_slot _ _))
    · rw [htstage, objSlot_live (s.seenFor (.toam k) old) k hlive]
      exact Table.read_write_self ..
    · rw [htopal]
      exact objSlot_publishes (s := s.seenFor (.toam k) old) hlive h0 hlt i

end Sys2Proof.Machine
end
